-- ==== Sys2Proof/Word.lean ====
section
/-! DEFINITION. The word types of the chip, at the exact widths of spec rules R5 and R13. -/

namespace Sys2Proof

/-- An 8-bit register, port or data byte (R5: register data width 8). -/
abbrev Byte := BitVec 8

/-- A 16-bit timer counter or latch (R5: counter and latch width 16). -/
abbrev Word := BitVec 16

/-- The five cause bits of `ICR` and `IMR` (R23, R24). -/
abbrev Causes := BitVec 5

/-- One of the two 32-bit fields of the Delay Pipeline (R29, R30). -/
abbrev PipeWord := BitVec 32

/-- A 16-bit stimulus word, the spec's transport format of one operation (R65). -/
abbrev StimulusWord := BitVec 16

/-- The 4-bit register select, all of an address that reaches the core (R47, R64). -/
abbrev RegSelect := BitVec 4

end Sys2Proof
end

