-- ==== Sys2Proof/Syntax.lean ====
section
/-! DEFINITION. The operation set of rule R63: one constructor per row of the opcode table (R70).
The chip executes no program of its own (R14); an operation is what the environment applies to it. -/

namespace Sys2Proof

/-- The 38 operations the environment can apply to the chip, in the order of the opcode map R70. -/
inductive Instr where
  /-- TICK, one system clock (R165). -/
  | tick
  /-- RESET, one edge of the reset line (R205). -/
  | reset
  /-- RD_PRA, register 0 (R99). -/
  | rdPra
  /-- RD_PRB, register 1 (R101). -/
  | rdPrb
  /-- RD_DDRA, register 2 (R103). -/
  | rdDdra
  /-- RD_DDRB, register 3 (R105). -/
  | rdDdrb
  /-- RD_TALO, register 4 (R121). -/
  | rdTalo
  /-- RD_TAHI, register 5 (R122). -/
  | rdTahi
  /-- RD_TBLO, register 6 (R123). -/
  | rdTblo
  /-- RD_TBHI, register 7 (R124). -/
  | rdTbhi
  /-- RD_TOD10, register 8 (R152). -/
  | rdTod10
  /-- RD_TODSEC, register 9 (R153). -/
  | rdTodsec
  /-- RD_TODMIN, register 10 (R154). -/
  | rdTodmin
  /-- RD_TODHR, register 11 (R155). -/
  | rdTodhr
  /-- RD_SDR, register 12 (R160). -/
  | rdSdr
  /-- RD_ICR, register 13 (R146). -/
  | rdIcr
  /-- RD_CRA, register 14 (R138). -/
  | rdCra
  /-- RD_CRB, register 15 (R139). -/
  | rdCrb
  /-- WR_PRA, register 0 (R100). -/
  | wrPra (db : Byte)
  /-- WR_PRB, register 1 (R102). -/
  | wrPrb (db : Byte)
  /-- WR_DDRA, register 2 (R104). -/
  | wrDdra (db : Byte)
  /-- WR_DDRB, register 3 (R106). -/
  | wrDdrb (db : Byte)
  /-- WR_TALO, register 4 (R113). -/
  | wrTalo (db : Byte)
  /-- WR_TAHI, register 5 (R114). -/
  | wrTahi (db : Byte)
  /-- WR_TBLO, register 6 (R115). -/
  | wrTblo (db : Byte)
  /-- WR_TBHI, register 7 (R116). -/
  | wrTbhi (db : Byte)
  /-- WR_TOD10, register 8 (R156). -/
  | wrTod10 (db : Byte)
  /-- WR_TODSEC, register 9 (R157). -/
  | wrTodsec (db : Byte)
  /-- WR_TODMIN, register 10 (R158). -/
  | wrTodmin (db : Byte)
  /-- WR_TODHR, register 11 (R159). -/
  | wrTodhr (db : Byte)
  /-- WR_SDR, register 12 (R161). -/
  | wrSdr (db : Byte)
  /-- WR_IMR, register 13 (R148). -/
  | wrImr (db : Byte)
  /-- WR_CRA, register 14 (R136). -/
  | wrCra (db : Byte)
  /-- WR_CRB, register 15 (R137). -/
  | wrCrb (db : Byte)
  /-- INPA, the new level of the port A pins as driven from outside (R111). -/
  | inpa (v : Byte)
  /-- INPB, the new level of the port B pins as driven from outside (R112). -/
  | inpb (v : Byte)
  /-- GATE, the new level of the external gate input (R130). -/
  | gate (g : Bool)
  /-- CAUSE, the set of external causes to raise as a mask byte `c ⊆ 0x1C` (R69, R162). -/
  | cause (c : Byte)
  deriving DecidableEq, Repr

end Sys2Proof
end

