-- ==== Sys2Proof/WellFormed.lean ====
section
/-! DEFINITION. Which terms of Instr are operations.
Every operand but one has its exact width in its type; the exception is the mask byte of CAUSE, of which rules R69 and R162
admit only subsets of 0x1C. -/

namespace Sys2Proof

/-- A mask byte CAUSE may carry: one bit per cause 4, 3 and 2, no other bit (R69: `c ⊆ 0x1C`). -/
def causeMaskOk (c : Byte) : Bool := c &&& 0xE3#8 == 0#8

/-- Well-formed operations: every one is, except a CAUSE whose mask names a bit outside 0x1C (R69, R162). -/
def Instr.wf : Instr → Bool
  | .cause c => causeMaskOk c
  | .tick | .reset | .rdPra | .rdPrb | .rdDdra | .rdDdrb | .rdTalo | .rdTahi | .rdTblo | .rdTbhi | .rdTod10 | .rdTodsec
  | .rdTodmin | .rdTodhr | .rdSdr | .rdIcr | .rdCra | .rdCrb | .wrPra _ | .wrPrb _ | .wrDdra _ | .wrDdrb _ | .wrTalo _
  | .wrTahi _ | .wrTblo _ | .wrTbhi _ | .wrTod10 _ | .wrTodsec _ | .wrTodmin _ | .wrTodhr _ | .wrSdr _ | .wrImr _
  | .wrCra _ | .wrCrb _ | .inpa _ | .inpb _ | .gate _ => true

end Sys2Proof
end

