-- ==== Sys2Proof/Decode.lean ====
section
/-! DEFINITION. The stimulus-word decoder (R65 to R70, R76, R78), the encoder written from the same formats, and the match/mask
row of each operation (R70). -/

namespace Sys2Proof

/-- The read of the register that `rs` selects: the RD half of the address column of R15 and of the opcode map R70.
The four Booleans are `rs[3]`, `rs[2]`, `rs[1]`, `rs[0]`. -/
def readOf (rs : RegSelect) : Instr :=
  match rs.getLsbD 3, rs.getLsbD 2, rs.getLsbD 1, rs.getLsbD 0 with
  | false, false, false, false => .rdPra     -- 0
  | false, false, false, true  => .rdPrb     -- 1
  | false, false, true,  false => .rdDdra    -- 2
  | false, false, true,  true  => .rdDdrb    -- 3
  | false, true,  false, false => .rdTalo    -- 4
  | false, true,  false, true  => .rdTahi    -- 5
  | false, true,  true,  false => .rdTblo    -- 6
  | false, true,  true,  true  => .rdTbhi    -- 7
  | true,  false, false, false => .rdTod10   -- 8
  | true,  false, false, true  => .rdTodsec  -- 9
  | true,  false, true,  false => .rdTodmin  -- 10
  | true,  false, true,  true  => .rdTodhr   -- 11
  | true,  true,  false, false => .rdSdr     -- 12
  | true,  true,  false, true  => .rdIcr     -- 13
  | true,  true,  true,  false => .rdCra     -- 14
  | true,  true,  true,  true  => .rdCrb     -- 15

/-- The write of `db` to the register that `rs` selects (R15, R70); address 13 is the mask register here and the cause register
in `readOf` (R149). -/
def writeOf (rs : RegSelect) (db : Byte) : Instr :=
  match rs.getLsbD 3, rs.getLsbD 2, rs.getLsbD 1, rs.getLsbD 0 with
  | false, false, false, false => .wrPra db     -- 0
  | false, false, false, true  => .wrPrb db     -- 1
  | false, false, true,  false => .wrDdra db    -- 2
  | false, false, true,  true  => .wrDdrb db    -- 3
  | false, true,  false, false => .wrTalo db    -- 4
  | false, true,  false, true  => .wrTahi db    -- 5
  | false, true,  true,  false => .wrTblo db    -- 6
  | false, true,  true,  true  => .wrTbhi db    -- 7
  | true,  false, false, false => .wrTod10 db   -- 8
  | true,  false, false, true  => .wrTodsec db  -- 9
  | true,  false, true,  false => .wrTodmin db  -- 10
  | true,  false, true,  true  => .wrTodhr db   -- 11
  | true,  true,  false, false => .wrSdr db     -- 12
  | true,  true,  false, true  => .wrImr db     -- 13
  | true,  true,  true,  false => .wrCra db     -- 14
  | true,  true,  true,  true  => .wrCrb db     -- 15

/-- An operation whose must-be-zero field is `z`: refused when the field is not zero (R76). -/
def ifZero {n : Nat} (z : BitVec n) (i : Instr) : Option Instr := if z = 0#n then some i else none

/-- The decoder: `kind = w[15:13]` first, then `rs = w[11:8]`, then the must-be-zero fields (R65, R78).
`none` is a reserved word (R76).  The three Booleans are `w[15]`, `w[14]`, `w[13]`. -/
def decode (w : StimulusWord) : Option Instr :=
  match w.getLsbD 15, w.getLsbD 14, w.getLsbD 13 with
  | false, false, false => ifZero (w.extractLsb' 0 13) .tick                                              -- 000 EVENT
  | false, false, true  => ifZero (w.extractLsb' 12 1 ++ w.extractLsb' 0 8) (readOf (w.extractLsb' 8 4))   -- 001 RD
  | false, true,  false => ifZero (w.extractLsb' 12 1) (writeOf (w.extractLsb' 8 4) (w.extractLsb' 0 8))   -- 010 WR
  | false, true,  true  => ifZero (w.extractLsb' 0 13) .reset                                             -- 011 EVENT
  | true,  false, false => ifZero (w.extractLsb' 8 5) (.inpa (w.extractLsb' 0 8))                          -- 100 IN8
  | true,  false, true  => ifZero (w.extractLsb' 8 5) (.inpb (w.extractLsb' 0 8))                          -- 101 IN8
  | true,  true,  false => ifZero (w.extractLsb' 1 12) (.gate (w.getLsbD 0))                              -- 110 IN1
  | true,  true,  true  => ifZero (w.extractLsb' 5 8 ++ w.extractLsb' 0 2) (.cause (w.extractLsb' 0 8))    -- 111 INC

/-- The stimulus word that the low `nbits` bits of the number `w` spell, bit 0 the least significant; every operation is one
16-bit word (R65), so there is no word order to fix, and a longer number is cut to its low 16 bits (DESIGN CHOICE,
assumption 15). -/
def tableWord (nbits w : Nat) : StimulusWord := BitVec.ofNat 16 (w % 2 ^ nbits)

/-- What the decoder reads from the table's bits: `none` for a reserved word and for a number that is longer than the one word an
operation has (R65; DESIGN CHOICE, assumption 15). -/
def decodeTableWord (nbits w : Nat) : Option Instr :=
  if w % 2 ^ nbits < 2 ^ 16 then decode (tableWord nbits w) else none

/-- Format EVENT (R66): the kind, then thirteen zeros. -/
def eventWord (kind : BitVec 3) : StimulusWord := kind ++ 0#13

/-- Format RD (R67): `001`, zero, `rs`, eight zeros. -/
def readWord (rs : RegSelect) : StimulusWord := 0b001#3 ++ 0#1 ++ rs ++ 0#8

/-- Format WR (R68): `010`, zero, `rs`, `db`. -/
def writeWord (rs : RegSelect) (db : Byte) : StimulusWord := 0b010#3 ++ 0#1 ++ rs ++ db

/-- Format IN8 (R69): the kind, five zeros, the byte. -/
def in8Word (kind : BitVec 3) (v : Byte) : StimulusWord := kind ++ 0#5 ++ v

/-- Format IN1 (R69): `110`, twelve zeros, the bit. -/
def in1Word (g : Bool) : StimulusWord := 0b110#3 ++ 0#12 ++ BitVec.ofBool g

/-- Format INC (R69): `111`, eight zeros, the three bits `w[4:2]`, two zeros. -/
def incWord (m : BitVec 3) : StimulusWord := 0b111#3 ++ 0#8 ++ m ++ 0#2

/-- The encoder, format by format from R66 to R70. -/
def encode : Instr → StimulusWord
  | .tick       => eventWord 0b000#3
  | .reset      => eventWord 0b011#3
  | .rdPra      => readWord 0
  | .rdPrb      => readWord 1
  | .rdDdra     => readWord 2
  | .rdDdrb     => readWord 3
  | .rdTalo     => readWord 4
  | .rdTahi     => readWord 5
  | .rdTblo     => readWord 6
  | .rdTbhi     => readWord 7
  | .rdTod10    => readWord 8
  | .rdTodsec   => readWord 9
  | .rdTodmin   => readWord 10
  | .rdTodhr    => readWord 11
  | .rdSdr      => readWord 12
  | .rdIcr      => readWord 13
  | .rdCra      => readWord 14
  | .rdCrb      => readWord 15
  | .wrPra db    => writeWord 0 db
  | .wrPrb db    => writeWord 1 db
  | .wrDdra db   => writeWord 2 db
  | .wrDdrb db   => writeWord 3 db
  | .wrTalo db   => writeWord 4 db
  | .wrTahi db   => writeWord 5 db
  | .wrTblo db   => writeWord 6 db
  | .wrTbhi db   => writeWord 7 db
  | .wrTod10 db  => writeWord 8 db
  | .wrTodsec db => writeWord 9 db
  | .wrTodmin db => writeWord 10 db
  | .wrTodhr db  => writeWord 11 db
  | .wrSdr db    => writeWord 12 db
  | .wrImr db    => writeWord 13 db
  | .wrCra db    => writeWord 14 db
  | .wrCrb db    => writeWord 15 db
  | .inpa v     => in8Word 0b100#3 v
  | .inpb v     => in8Word 0b101#3 v
  | .gate g     => in1Word g
  | .cause c    => incWord (c.extractLsb' 2 3)

/-- One row of the opcode map R70: a word `w` spells the operation exactly when `w & mask = match`. -/
structure OpcodeRow where
  /-- The column `match`. -/
  pattern : StimulusWord
  /-- The column `mask`. -/
  mask : StimulusWord
  deriving DecidableEq, Repr

/-- Whether a word spells the operation of a row (R70). -/
def OpcodeRow.spells (r : OpcodeRow) (w : StimulusWord) : Bool := w &&& r.mask == r.pattern

/-- The row of the opcode map R70 (and of `opcode_table.json`) for each operation. -/
def opcodeRow : Instr → OpcodeRow
  | .tick       => ⟨0x0000, 0xFFFF⟩
  | .reset      => ⟨0x6000, 0xFFFF⟩
  | .rdPra      => ⟨0x2000, 0xFFFF⟩
  | .rdPrb      => ⟨0x2100, 0xFFFF⟩
  | .rdDdra     => ⟨0x2200, 0xFFFF⟩
  | .rdDdrb     => ⟨0x2300, 0xFFFF⟩
  | .rdTalo     => ⟨0x2400, 0xFFFF⟩
  | .rdTahi     => ⟨0x2500, 0xFFFF⟩
  | .rdTblo     => ⟨0x2600, 0xFFFF⟩
  | .rdTbhi     => ⟨0x2700, 0xFFFF⟩
  | .rdTod10    => ⟨0x2800, 0xFFFF⟩
  | .rdTodsec   => ⟨0x2900, 0xFFFF⟩
  | .rdTodmin   => ⟨0x2A00, 0xFFFF⟩
  | .rdTodhr    => ⟨0x2B00, 0xFFFF⟩
  | .rdSdr      => ⟨0x2C00, 0xFFFF⟩
  | .rdIcr      => ⟨0x2D00, 0xFFFF⟩
  | .rdCra      => ⟨0x2E00, 0xFFFF⟩
  | .rdCrb      => ⟨0x2F00, 0xFFFF⟩
  | .wrPra _    => ⟨0x4000, 0xFF00⟩
  | .wrPrb _    => ⟨0x4100, 0xFF00⟩
  | .wrDdra _   => ⟨0x4200, 0xFF00⟩
  | .wrDdrb _   => ⟨0x4300, 0xFF00⟩
  | .wrTalo _   => ⟨0x4400, 0xFF00⟩
  | .wrTahi _   => ⟨0x4500, 0xFF00⟩
  | .wrTblo _   => ⟨0x4600, 0xFF00⟩
  | .wrTbhi _   => ⟨0x4700, 0xFF00⟩
  | .wrTod10 _  => ⟨0x4800, 0xFF00⟩
  | .wrTodsec _ => ⟨0x4900, 0xFF00⟩
  | .wrTodmin _ => ⟨0x4A00, 0xFF00⟩
  | .wrTodhr _  => ⟨0x4B00, 0xFF00⟩
  | .wrSdr _    => ⟨0x4C00, 0xFF00⟩
  | .wrImr _    => ⟨0x4D00, 0xFF00⟩
  | .wrCra _    => ⟨0x4E00, 0xFF00⟩
  | .wrCrb _    => ⟨0x4F00, 0xFF00⟩
  | .inpa _     => ⟨0x8000, 0xFF00⟩
  | .inpb _     => ⟨0xA000, 0xFF00⟩
  | .gate _     => ⟨0xC000, 0xFFFE⟩
  | .cause _    => ⟨0xE000, 0xFFE3⟩

end Sys2Proof
end

