-- ==== Sys2Proof/Config.lean ====
section
/-! DEFINITION. The three parameters rule R5 leaves OPEN (decisions D23 and D28).
They are plain data held in State and changed by no operation (R205), so that a claim about every state is a claim about
every setting of them.  The spec leaves no value free in the sense of an undefined result, so there is no opaque constant. -/

namespace Sys2Proof

/-- The OPEN parameters of the chip model (R5). -/
structure Config where
  /-- `IDLE_ENABLE`: whether the Idle Optimizer may enter Idle mode (R168). -/
  idleEnable : Bool
  /-- `IDLE_MIN`: the least number of clocks worth skipping (R168, R173). -/
  idleMin : Nat
  /-- `CAUSE_HOOK`: whether the environment may issue CAUSE (R162). -/
  causeHook : Bool
  deriving DecidableEq, Repr

/-- The constraint rule R173 puts on the parameters: `IDLE_MIN ≥ 1`. -/
abbrev Config.wf (c : Config) : Prop := 1 ≤ c.idleMin

/-- The setting State.reset takes: the reference semantics `IDLE_ENABLE = false` of R182, the least threshold R173 allows, and the
default `CAUSE_HOOK = false` of R5.  The first two are a DESIGN CHOICE (assumption 3). -/
def Config.default : Config := { idleEnable := false, idleMin := 1, causeHook := false }

end Sys2Proof
end

