-- ==== Sys2Proof/Machine/State.lean ====
section
/-! DEFINITION. The state of the chip (R13), the inputs the environment holds (R32), the parameters (R5) and the environment's side
of the bus: the operations still to come and the bytes reads have returned.  Plain data. -/

namespace Sys2Proof.Machine

/-- The two timers; the `X` of the rules stated "for X in {A, B}". -/
inductive TimerId where
  | a
  | b
  deriving DecidableEq, Repr

/-- The state that belongs to one timer. -/
@[ext]
structure Timer where
  /-- `latX`, the reload value (R19). -/
  latch : Word
  /-- `cntX`, the current down-count as stored; while Idle it is the pre-advanced value (R20). -/
  counter : Word
  /-- `CRX`, the control register (R21, R22). -/
  control : Byte
  /-- `togX`, the persistent toggle bit (R27). -/
  toggle : Bool
  /-- `outX`, the level the timer puts on its port B pin when PBON is 1 (R28). -/
  output : Bool
  deriving DecidableEq, Repr

/-- A timer right after RESET (R38). -/
def Timer.reset : Timer := { latch := 0xFFFF, counter := 0xFFFF, control := 0x00, toggle := false, output := false }

/-- The whole state. -/
@[ext]
structure State where
  /-- `PRA`, port A output latch (R16). -/
  pra : Byte
  /-- `PRB`, port B output latch (R16). -/
  prb : Byte
  /-- `DDRA`, port A direction, 1 = output (R17). -/
  ddra : Byte
  /-- `DDRB`, port B direction, 1 = output (R17). -/
  ddrb : Byte
  /-- `pcLine`, the level of the handshake line, true = high (R18). -/
  pcLine : Bool
  /-- `latA`, `cntA`, `CRA`, `togA`, `outA` (R19 to R21, R27, R28). -/
  timerA : Timer
  /-- `latB`, `cntB`, `CRB`, `togB`, `outB` (R19, R20, R22, R27, R28). -/
  timerB : Timer
  /-- `ICR`, the sticky cause flags (R23). -/
  icr : Causes
  /-- `IMR`, the mask, one bit per cause (R24). -/
  imr : Causes
  /-- `irq`, true = the interrupt line is asserted, that is low (R25). -/
  irq : Bool
  /-- `tod[0]`, tenths (R26). -/
  tod10 : Byte
  /-- `tod[1]`, seconds (R26). -/
  todSec : Byte
  /-- `tod[2]`, minutes (R26). -/
  todMin : Byte
  /-- `tod[3]`, hours (R26). -/
  todHr : Byte
  /-- `pending`, the micro-events in flight (R29). -/
  pending : PipeWord
  /-- `feed`, the bits OR-ed into `pending` after every shift (R30). -/
  feed : PipeWord
  /-- `idle`, true = Idle, fast-forwarded (R31). -/
  idle : Bool
  /-- `idleLeft`, the coming TICKs absorbed without a full transition (R31). -/
  idleLeft : Nat
  /-- `PA_ext`, what every other driver puts on the port A pins; held by the environment (R32). -/
  paExt : Byte
  /-- `PB_ext`, the same for port B (R32). -/
  pbExt : Byte
  /-- `gate`, the external gate input (R32). -/
  gate : Bool
  /-- The parameters of R5; no operation changes them (R205). -/
  config : Config
  /-- The environment's stimulus sequence, next word first.  R14 and R37 keep it outside the chip; it stands in State because a step
  is a function of State alone (DESIGN CHOICE, assumption 1). -/
  stimulus : List StimulusWord
  /-- The bytes the reads have returned, latest first: the environment's record of an observable (R181), no chip state
  (DESIGN CHOICE, assumption 2). -/
  returned : List Byte
  deriving DecidableEq, Repr

/-- Reasons a step could stop with a fault.  There is none: the chip has no exceptions, traps or faults, no operation can fail
(R54, R185), and no point of it has the treatment fault (93_implementation_defined.md). -/
inductive Fault where
  deriving DecidableEq, Repr

/-- Reasons a step is refused. -/
inductive Refusal where
  /-- An instruction without a meaning; raised by an arm of exec and by nothing else.  Safe.  No arm raises it now. -/
  | notModelled (mnemonic : String)
  /-- A reserved stimulus word: it spells no operation and the decoder refuses it (R76); raised by step.  Safe. -/
  | reservedWord (w : StimulusWord)
  /-- A CAUSE while the parameter `CAUSE_HOOK` is false: the word is refused as well and the environment never issues it (R76, R162);
  raised by execCause.  Safe. -/
  | causeHookAbsent
  deriving DecidableEq, Repr

/-- The outcome of an operation. -/
abbrev StepResult := Host.Outcome State Fault Refusal

/-- The record of timer X. -/
def State.timer (s : State) : TimerId → Timer
  | .a => s.timerA
  | .b => s.timerB

/-- Replace the record of timer X. -/
def State.setTimer (s : State) (x : TimerId) (t : Timer) : State :=
  match x with
  | .a => { s with timerA := t }
  | .b => { s with timerB := t }

/-- The state after RESET (R38, R205), with the inputs at their values before the first input operation (R32), the parameters of
Config.default and nothing yet issued or returned. -/
def State.reset : State :=
  { pra := 0x00, prb := 0x00, ddra := 0x00, ddrb := 0x00, pcLine := true
    timerA := Timer.reset, timerB := Timer.reset
    icr := 0, imr := 0, irq := false
    tod10 := 0x00, todSec := 0x00, todMin := 0x00, todHr := 0x00
    pending := 0, feed := 0, idle := false, idleLeft := 0
    paExt := 0xFF, pbExt := 0xFF, gate := true
    config := Config.default, stimulus := [], returned := [] }

end Sys2Proof.Machine
end

