-- ==== Sys2Proof/Machine/Operands.lean ====
section
/-! DEFINITION. The operand forms: halves of a 16-bit timer value (R49, R71), the fields of a control byte (R21, R22, R34, R73), the
operand of WR_IMR (R72) and of CAUSE (R69, R162). -/

namespace Sys2Proof.Machine

/-- `v[7:0]`, the byte at the lower address (R49). -/
def lowByte (v : Word) : Byte := v.extractLsb' 0 8

/-- `v[15:8]`, the byte at the higher address (R49). -/
def highByte (v : Word) : Byte := v.extractLsb' 8 8

/-- `v[7:0] ← b`, the other byte as it was (R71). -/
def withLowByte (v : Word) (b : Byte) : Word := highByte v ++ b

/-- `v[15:8] ← b`, the other byte as it was (R71). -/
def withHighByte (v : Word) (b : Byte) : Word := b ++ lowByte v

/-- START, bit 0 of a control byte (R21, R22; the positions are PRESUMED, assumption 4). -/
def ctlStart (v : Byte) : Bool := v.getLsbD 0

/-- PBON, bit 1 (R21, R22). -/
def ctlPbOn (v : Byte) : Bool := v.getLsbD 1

/-- OUTMODE, bit 2: true = toggle, false = pulse (R21, R22). -/
def ctlToggleMode (v : Byte) : Bool := v.getLsbD 2

/-- RUNMODE, bit 3: true = one-shot (R21, R22). -/
def ctlOneShot (v : Byte) : Bool := v.getLsbD 3

/-- LOAD, bit 4, a strobe (R21, R22, R73). -/
def ctlLoad (v : Byte) : Bool := v.getLsbD 4

/-- The INMODE field, which decides what the timer counts: bit 5 of CRA, bits 6:5 of CRB (R21, R22). -/
inductive InputMode where
  /-- Count system clocks. -/
  | systemClock
  /-- Count external pulses, a mode in which the timer stands still (R127). -/
  | externalPulses
  /-- Timer B only: count timer A's underflows. -/
  | cascade
  /-- Timer B only: count timer A's underflows while `gate` is 1. -/
  | cascadeGated
  deriving DecidableEq, Repr

/-- The input mode a control byte selects for timer X (R21, R22). -/
def inputMode (x : TimerId) (v : Byte) : InputMode :=
  match x with
  | .a => if v.getLsbD 5 then .externalPulses else .systemClock
  | .b =>
    match v.getLsbD 6, v.getLsbD 5 with
    | false, false => .systemClock
    | false, true => .externalPulses
    | true, false => .cascade
    | true, true => .cascadeGated

/-- "Timer X counts system clocks": `phi2A`, `phi2B` of R34, the condition of R140. -/
def countsSystemClock (x : TimerId) (v : Byte) : Bool := ctlStart v && inputMode x v == .systemClock

/-- The control byte as stored: the LOAD strobe is not kept (R73: `v & 0xEF`). -/
def storedControl (v : Byte) : Byte := v &&& 0xEF#8

/-- A control byte with START cleared (R126). -/
def clearStart (v : Byte) : Byte := v &&& 0xFE#8

/-- The mask after WR_IMR: `db[7]` selects set (1) or clear (0) of the bits `db[4:0]`; `db[6:5]` are ignored (R72, R148). -/
def maskAfterWrite (imr : Causes) (v : Byte) : Causes :=
  if v.getLsbD 7 then imr ||| v.extractLsb' 0 5 else imr &&& ~~~(v.extractLsb' 0 5)

/-- The causes a CAUSE mask byte raises: `c & 0x1C`, as a set of the five causes (R162). -/
def externalCauses (c : Byte) : Causes := (c &&& 0x1C#8).extractLsb' 0 5

end Sys2Proof.Machine
end

