-- ==== Sys2Proof/Machine/Flags.lean ====
section
/-! DEFINITION. The flags of R35: causes, mask and interrupt line, and the values computed from them. -/

namespace Sys2Proof.Machine

/-- The five interrupt causes (R186). -/
inductive Cause where
  /-- Timer A underflow. -/
  | ta
  /-- Timer B underflow. -/
  | tb
  /-- TOD alarm, raised by CAUSE only. -/
  | alrm
  /-- SDR complete, raised by CAUSE only. -/
  | sp
  /-- FLAG edge, raised by CAUSE only. -/
  | flg
  deriving DecidableEq, Repr

/-- The code of a cause: its bit number in `ICR`, `IMR` and the byte RD_ICR returns (R186). -/
def Cause.code : Cause → Nat
  | .ta => 0
  | .tb => 1
  | .alrm => 2
  | .sp => 3
  | .flg => 4

/-- The cause an underflow of timer X raises (R125: x = 0 for A, 1 for B). -/
def TimerId.cause : TimerId → Cause
  | .a => .ta
  | .b => .tb

/-- `ICR[c] ← 1`, the other bits as they were (R188). -/
def withCause (icr : Causes) (c : Cause) : Causes := icr ||| BitVec.twoPow 5 c.code

/-- `ICR & IMR`, the enabled causes that are pending. -/
def enabledCauses (s : State) : Causes := s.icr &&& s.imr

/-- The condition under which a moment that consults the mask schedules an assertion: `(ICR & IMR) ≠ 0 ∧ irq = 0`
(R145, R148, R162). -/
def mustSchedule (s : State) : Bool := enabledCauses s != 0#5 && !s.irq

/-- The byte RD_ICR returns: `{irq, 0, 0, ICR[4:0]}` (R74). -/
def icrByte (s : State) : Byte := BitVec.ofBool s.irq ++ 0#2 ++ s.icr

/-- `IRQ_n = ¬irq`, the level of the interrupt line (R33, R150). -/
def irqN (s : State) : Bool := !s.irq

/-- The toggle bit after a control write: a start edge in toggle mode sets it, nothing else changes it (R141). -/
def toggleAfterWrite (t : Timer) (v : Byte) : Bool :=
  if ctlStart v && !ctlStart t.control && ctlToggleMode v then true else t.toggle

/-- The timer output bit after an underflow, `t` holding the toggle bit already flipped (R125). -/
def outputAfterUnderflow (t : Timer) : Bool :=
  if ctlPbOn t.control then (if ctlToggleMode t.control then t.toggle else true) else t.output

end Sys2Proof.Machine
end

