-- ==== Sys2Proof/Machine/Pipeline.lean ====
section
/-! DEFINITION. The Delay Pipeline: bit positions, the two constants, the shift and the steady state (R81 to R94). -/

namespace Sys2Proof.Machine

/-- The named bits of `pending` and `feed` (R81). -/
inductive PipeBit where
  | countA0 | countA1 | countA2 | countA3
  | countB0 | countB1 | countB2 | countB3
  | loadA0 | loadA1
  | loadB0 | loadB1
  | pb6Low0 | pb6Low1
  | pb7Low0 | pb7Low1
  | int0 | int1
  | oneShotA0
  | oneShotB0
  | pcHigh0 | pcHigh1
  deriving DecidableEq, Repr

/-- The bit number of each named bit (R81). -/
def PipeBit.pos : PipeBit → Nat
  | .countA0 => 0 | .countA1 => 1 | .countA2 => 2 | .countA3 => 3
  | .countB0 => 4 | .countB1 => 5 | .countB2 => 6 | .countB3 => 7
  | .loadA0 => 8 | .loadA1 => 9
  | .loadB0 => 10 | .loadB1 => 11
  | .pb6Low0 => 12 | .pb6Low1 => 13
  | .pb7Low0 => 14 | .pb7Low1 => 15
  | .int0 => 16 | .int1 => 17
  | .oneShotA0 => 18
  | .oneShotB0 => 19
  | .pcHigh0 => 20 | .pcHigh1 => 21

/-- The one-bit mask of a named bit (R10, R81: `1 << i`). -/
def PipeBit.mask (b : PipeBit) : PipeWord := BitVec.twoPow 32 b.pos

/-- `CountX0`. -/
def TimerId.count0 : TimerId → PipeBit
  | .a => .countA0
  | .b => .countB0

/-- `CountX1`. -/
def TimerId.count1 : TimerId → PipeBit
  | .a => .countA1
  | .b => .countB1

/-- `CountX2`, underflow-eligible (R87). -/
def TimerId.count2 : TimerId → PipeBit
  | .a => .countA2
  | .b => .countB2

/-- `CountX3`, decrement (R87). -/
def TimerId.count3 : TimerId → PipeBit
  | .a => .countA3
  | .b => .countB3

/-- `LoadX0`. -/
def TimerId.load0 : TimerId → PipeBit
  | .a => .loadA0
  | .b => .loadB0

/-- `LoadX1`, load in this clock (R88). -/
def TimerId.load1 : TimerId → PipeBit
  | .a => .loadA1
  | .b => .loadB1

/-- Stage 0 of the PB-low chain: PB6 belongs to timer A, PB7 to timer B (R89). -/
def TimerId.pbLow0 : TimerId → PipeBit
  | .a => .pb6Low0
  | .b => .pb7Low0

/-- Stage 1 of the PB-low chain (R89). -/
def TimerId.pbLow1 : TimerId → PipeBit
  | .a => .pb6Low1
  | .b => .pb7Low1

/-- `OneShotX0` (R91). -/
def TimerId.oneShot : TimerId → PipeBit
  | .a => .oneShotA0
  | .b => .oneShotB0

/-- `p[b]`, the Boolean "that bit is set" (R10). -/
def hasBit (p : PipeWord) (b : PipeBit) : Bool := p.getLsbD b.pos

/-- `p | b` (R10). -/
def setBit (p : PipeWord) (b : PipeBit) : PipeWord := p ||| b.mask

/-- `p & ~b` (R10). -/
def clearBit (p : PipeWord) (b : PipeBit) : PipeWord := p &&& ~~~b.mask

/-- `SHIFT_MASK`, the bits at a stage of 1 or more (R82). -/
def shiftMask : PipeWord := 0x0022AAEE#32

/-- `STEADY_BITS`, the count and one-shot bits (R82). -/
def steadyBits : PipeWord := 0x000C00FF#32

/-- The four bits `feed` may hold: `CountA0`, `CountB0`, `OneShotA0`, `OneShotB0` (R84). -/
def feedBits : PipeWord := 0x000C0011#32

/-- The bits of `pending` that are ever set: positions 0 to 21 (R81, R93). -/
def usedBits : PipeWord := 0x003FFFFF#32

/-- The shift that ends every Active TICK: `((p << 1) & SHIFT_MASK) | feed` (R83). -/
def shiftPipe (p feed : PipeWord) : PipeWord := ((p <<< 1) &&& shiftMask) ||| feed

/-- The predicate `Steady(pending, feed)` (R94). -/
def steady (p feed : PipeWord) : Bool := p &&& ~~~steadyBits == 0#32 && shiftPipe p feed == p

end Sys2Proof.Machine
end

