-- ==== Sys2Proof/Machine/Ops.lean ====
section
/-! DEFINITION. The operations shared by the meanings: scheduling, the Idle Optimizer's `Absorb` and logical counter, the byte a read
returns, and the interrupt entry (R192) and return (R193), which are all this chip has of taking an exception. -/

namespace Sys2Proof.Machine

/-- Which timer X is running in the pipeline: `pending[CountX3]` (R168 to R171). -/
def counting (x : TimerId) (s : State) : Bool := hasBit s.pending x.count3

/-- `Schedule(b)`: `pending ← pending | b` (R10). -/
def schedule (b : PipeBit) (s : State) : State := { s with pending := setBit s.pending b }

/-- `pending ← pending & ~b`. -/
def unschedule (b : PipeBit) (s : State) : State := { s with pending := clearBit s.pending b }

/-- `LogicalCntX()`, the value every counter read returns (R171). -/
def logicalCounter (x : TimerId) (s : State) : Word :=
  if s.idle && counting x s then (s.timer x).counter + BitVec.ofNat 16 s.idleLeft else (s.timer x).counter

/-- The record of timer X with the stored counter replaced by the logical one. -/
def reconciled (x : TimerId) (s : State) : Timer := { s.timer x with counter := logicalCounter x s }

/-- `Absorb()`: the transition Idle→Active forced by an access; nothing when Active (R170). -/
def absorb (s : State) : State :=
  if s.idle then { s with timerA := reconciled .a s, timerB := reconciled .b s, idle := false, idleLeft := 0 } else s

/-- The byte a read returns to the environment (R64, R181). -/
def returnByte (r : Byte) (s : State) : State := { s with returned := r :: s.returned }

/-- A cause is recorded whether or not its mask bit is set (R188). -/
def raiseCause (c : Cause) (s : State) : State := { s with icr := withCause s.icr c }

/-- A moment that consults the mask: schedule the assertion when an enabled cause is pending and the line is high
(R145, R148, R162; R192 item 1). -/
def scheduleInterrupt (s : State) : State := if mustSchedule s then schedule .int0 s else s

/-- The assertion: the interrupt line goes low in the TICK that finds `Int1` (R144; R192 item 2). -/
def assertInterrupt (s : State) : State := if hasBit s.pending .int1 then { s with irq := true } else s

/-- The acknowledge: clear every cause, cancel an assertion in flight, raise the line (R146, R193). -/
def acknowledge (s : State) : State :=
  { s with icr := 0, pending := clearBit (clearBit s.pending .int0) .int1, irq := false }

end Sys2Proof.Machine
end

