-- ==== Sys2Proof/Machine/Control.lean ====
section
/-! DEFINITION. The Control and Interrupt Unit: control register writes and reads, the cause and mask registers, the TOD and SDR
stubs, the CAUSE hook, and the interrupt step of a TICK (R136 to R164). -/

namespace Sys2Proof.Machine

/-- Count enable of a control write, by the level of the new value (R140). -/
def writeCount (x : TimerId) (v : Byte) (s : State) : State :=
  if countsSystemClock x v then
    { s with pending := setBit (setBit s.pending x.count0) x.count1, feed := setBit s.feed x.count0 }
  else
    { s with pending := clearBit (clearBit s.pending x.count0) x.count1, feed := clearBit s.feed x.count0 }

/-- One-shot select of a control write: selecting acts at once, deselecting leaves the bit in `pending` (R143). -/
def writeOneShot (x : TimerId) (v : Byte) (s : State) : State :=
  if ctlOneShot v then { s with pending := setBit s.pending x.oneShot, feed := setBit s.feed x.oneShot }
  else { s with feed := clearBit s.feed x.oneShot }

/-- Force load of a control write (R151). -/
def writeLoad (x : TimerId) (v : Byte) (s : State) : State := if ctlLoad v then schedule x.load0 s else s

/-- Toggle bit of a control write; `s` still holds the old control register (R141). -/
def writeToggle (x : TimerId) (v : Byte) (s : State) : State :=
  s.setTimer x { s.timer x with toggle := toggleAfterWrite (s.timer x) v }

/-- Timer output bit of a control write, after the toggle bit (R142). -/
def writeOutput (x : TimerId) (v : Byte) (s : State) : State :=
  if ctlPbOn v && !ctlToggleMode v then s.setTimer x { s.timer x with output := hasBit s.pending x.pbLow1 }
  else
    let s := unschedule x.pbLow1 (unschedule x.pbLow0 s)
    if ctlPbOn v then s.setTimer x { s.timer x with output := (s.timer x).toggle } else s

/-- The store that ends a control write: the LOAD strobe is not kept (R73, R151). -/
def storeControl (x : TimerId) (v : Byte) (s : State) : State :=
  s.setTimer x { s.timer x with control := storedControl v }

/-- A write of control register X, in the order of the pseudocode of R136 and R137. -/
def writeControl (x : TimerId) (v : Byte) (s : State) : State :=
  storeControl x v (writeOutput x v (writeToggle x v (writeLoad x v (writeOneShot x v (writeCount x v (absorb s))))))

/-- The interrupt step of a TICK: assert from `Int1` first, then schedule from a new cause (R144, R145, R164). -/
def interruptStep (newCause : Bool) (s : State) : State :=
  let s := assertInterrupt s
  if newCause then scheduleInterrupt s else s

/-- WR_CRA (R136). -/
def execWrCra (db : Byte) (s : State) : StepResult := .next (writeControl .a db s)

/-- WR_CRB (R137). -/
def execWrCrb (db : Byte) (s : State) : StepResult := .next (writeControl .b db s)

/-- RD_CRA (R138). -/
def execRdCra (s : State) : StepResult := .next (returnByte s.timerA.control s)

/-- RD_CRB (R139). -/
def execRdCrb (s : State) : StepResult := .next (returnByte s.timerB.control s)

/-- RD_ICR: the byte is taken before the acknowledge (R146). -/
def execRdIcr (s : State) : StepResult := .next (returnByte (icrByte s) (acknowledge (absorb s)))

/-- WR_IMR (R148). -/
def execWrImr (db : Byte) (s : State) : StepResult :=
  let s := absorb s
  .next (scheduleInterrupt { s with imr := maskAfterWrite s.imr db })

/-- RD_TOD10 (R152). -/
def execRdTod10 (s : State) : StepResult := .next (returnByte s.tod10 s)

/-- RD_TODSEC (R153). -/
def execRdTodsec (s : State) : StepResult := .next (returnByte s.todSec s)

/-- RD_TODMIN (R154). -/
def execRdTodmin (s : State) : StepResult := .next (returnByte s.todMin s)

/-- RD_TODHR (R155). -/
def execRdTodhr (s : State) : StepResult := .next (returnByte s.todHr s)

/-- WR_TOD10 (R156). -/
def execWrTod10 (db : Byte) (s : State) : StepResult := .next { s with tod10 := db }

/-- WR_TODSEC (R157). -/
def execWrTodsec (db : Byte) (s : State) : StepResult := .next { s with todSec := db }

/-- WR_TODMIN (R158). -/
def execWrTodmin (db : Byte) (s : State) : StepResult := .next { s with todMin := db }

/-- WR_TODHR (R159). -/
def execWrTodhr (db : Byte) (s : State) : StepResult := .next { s with todHr := db }

/-- RD_SDR: always 0 (R160). -/
def execRdSdr (s : State) : StepResult := .next (returnByte 0x00#8 s)

/-- WR_SDR: a no-op, the data byte ignored (R161). -/
def execWrSdr (_db : Byte) (s : State) : StepResult := .next s

/-- The effect of CAUSE: nothing but `Absorb` when the set is empty (R162). -/
def raiseExternal (c : Byte) (s : State) : State :=
  let s := absorb s
  let s := { s with icr := s.icr ||| externalCauses c }
  if externalCauses c = 0#5 then s else scheduleInterrupt s

/-- CAUSE: available only when the parameter `CAUSE_HOOK` is true, refused as a word that spells no operation when it is false
(R76, R162). -/
def execCause (c : Byte) (s : State) : StepResult :=
  if s.config.causeHook then .next (raiseExternal c s) else .refused .causeHookAbsent

end Sys2Proof.Machine
end

