-- ==== Sys2Proof/Machine/Ports.lean ====
section
/-! DEFINITION. The Port Unit: output functions, bus values, the handshake pulse, its TICK steps, and the ten operations of the
family (R96 to R112). -/

namespace Sys2Proof.Machine

/-- `PA_out = PRA | ~DDRA` (R96). -/
def paOut (s : State) : Byte := s.pra ||| ~~~s.ddra

/-- `PRB | ~DDRB`, the port B output before the timer override (R97). -/
def pbBase (s : State) : Byte := s.prb ||| ~~~s.ddrb

/-- `PB_out`: a timer whose PBON bit is 1 owns its pin (R97). -/
def pbOut (s : State) : Byte :=
  BitVec.ofBool (if ctlPbOn s.timerB.control then s.timerB.output else (pbBase s).getLsbD 7) ++
  BitVec.ofBool (if ctlPbOn s.timerA.control then s.timerA.output else (pbBase s).getLsbD 6) ++
  (pbBase s).extractLsb' 0 6

/-- `PA_bus`, the wired AND of what the chip and what everything else drives (R98). -/
def paBus (s : State) : Byte := paOut s &&& s.paExt

/-- `PB_bus` (R98). -/
def pbBus (s : State) : Byte := pbOut s &&& s.pbExt

/-- `PC_n = pcLine`, the level of the handshake line (R33). -/
def pcN (s : State) : Bool := s.pcLine

/-- The outputs the environment sees between operations (R33, R181). -/
structure Outputs where
  paOut : Byte
  pbOut : Byte
  irqN : Bool
  pcN : Bool
  deriving DecidableEq, Repr

/-- The outputs as a function of the state; evaluating it has no side effect (R33, R110). -/
def outputsOf (s : State) : Outputs := { paOut := paOut s, pbOut := pbOut s, irqN := irqN s, pcN := pcN s }

/-- `PulsePC()`: the handshake line goes low at once and its return is scheduled, also when it is low already (R107). -/
def pulsePc (s : State) : State := schedule .pcHigh0 { s with pcLine := false }

/-- TICK step "PC return" (R108). -/
def pcReturnStep (s : State) : State := if hasBit s.pending .pcHigh1 then { s with pcLine := true } else s

/-- The end of timer X's output pulse (R109). -/
def pbLowOf (x : TimerId) (s : State) : State :=
  if hasBit s.pending x.pbLow1 then s.setTimer x { s.timer x with output := false } else s

/-- TICK step "PB low" (R109). -/
def pbLowStep (s : State) : State := pbLowOf .b (pbLowOf .a s)

/-- RD_PRA (R99). -/
def execRdPra (s : State) : StepResult := .next (returnByte (paBus s) s)

/-- WR_PRA (R100). -/
def execWrPra (db : Byte) (s : State) : StepResult := .next { s with pra := db }

/-- RD_PRB: the byte is taken before the handshake pulse (R101). -/
def execRdPrb (s : State) : StepResult :=
  let s := absorb s
  .next (returnByte (pbBus s) (pulsePc s))

/-- WR_PRB (R102). -/
def execWrPrb (db : Byte) (s : State) : StepResult := .next (pulsePc { absorb s with prb := db })

/-- RD_DDRA (R103). -/
def execRdDdra (s : State) : StepResult := .next (returnByte s.ddra s)

/-- WR_DDRA (R104). -/
def execWrDdra (db : Byte) (s : State) : StepResult := .next { s with ddra := db }

/-- RD_DDRB (R105). -/
def execRdDdrb (s : State) : StepResult := .next (returnByte s.ddrb s)

/-- WR_DDRB (R106). -/
def execWrDdrb (db : Byte) (s : State) : StepResult := .next { s with ddrb := db }

/-- INPA (R111). -/
def execInpa (v : Byte) (s : State) : StepResult := .next { s with paExt := v }

/-- INPB (R112). -/
def execInpb (v : Byte) (s : State) : StepResult := .next { s with pbExt := v }

end Sys2Proof.Machine
end

