-- ==== Sys2Proof/Machine/Timers.lean ====
section
/-! DEFINITION. The Timer Unit: the timer steps of a TICK (R117 to R120, R125, R126, R129) and the nine operations of the family
(R113 to R116, R121 to R124, R130). -/

namespace Sys2Proof.Machine

/-- `runningX = CRX[0]` (R34). -/
def running (x : TimerId) (s : State) : Bool := ctlStart (s.timer x).control

/-- The three states of a timer (R41). -/
inductive TimerMode where
  | stopped
  | running
  | runningOneShot
  deriving DecidableEq, Repr

/-- The state timer X is in (R41). -/
def timerMode (x : TimerId) (s : State) : TimerMode :=
  if running x s then (if ctlOneShot (s.timer x).control then .runningOneShot else .running) else .stopped

/-- Load or decrement: a load takes the place of the decrement of its clock; the decrement is modulo 2^16 (R117). -/
def countStep (x : TimerId) (s : State) : State :=
  if hasBit s.pending x.load1 then s.setTimer x { s.timer x with counter := (s.timer x).latch }
  else if hasBit s.pending x.count3 then s.setTimer x { s.timer x with counter := (s.timer x).counter - 1 }
  else s

/-- Timer X underflows, evaluated after the load or decrement of the clock: `cntX = 0 ∧ p[CountX2]` (R119). -/
def underflows (x : TimerId) (s : State) : Bool := (s.timer x).counter == 0#16 && hasBit s.pending x.count2

/-- The value R117 gives the counter of timer X in an Active TICK, as a function of the state before it; claims are stated with it. -/
def nextCounter (x : TimerId) (s : State) : Word :=
  if hasBit s.pending x.load1 then (s.timer x).latch
  else if hasBit s.pending x.count3 then (s.timer x).counter - 1
  else (s.timer x).counter

/-- Whether the coming TICK is an underflow of timer X (R119), as a function of the state before it; claims are stated with it. -/
def underflowDue (x : TimerId) (s : State) : Bool :=
  !s.idle && nextCounter x s == 0#16 && hasBit s.pending x.count2

/-- The output actions of an underflow: the toggle bit flips; with PBON the pin follows it or pulses high (R125). -/
def underflowOutput (x : TimerId) (s : State) : State :=
  let t := { s.timer x with toggle := !(s.timer x).toggle }
  let s := s.setTimer x { t with output := outputAfterUnderflow t }
  if ctlPbOn t.control && !ctlToggleMode t.control then schedule x.pbLow0 s else s

/-- The one-shot select as an underflow tests it: `(p | feed)[OneShotX0]` (R91, R126). -/
def oneShotSelected (x : TimerId) (s : State) : Bool := hasBit (s.pending ||| s.feed) x.oneShot

/-- `OneShotStop(X)` (R126). -/
def oneShotStop (x : TimerId) (s : State) : State :=
  if oneShotSelected x s then
    { s.setTimer x { s.timer x with control := clearStart (s.timer x).control } with
      pending := clearBit (clearBit (clearBit s.pending x.count0) x.count1) x.count2
      feed := clearBit s.feed x.count0 }
  else s

/-- The condition of `Cascade()`: timer B started in a cascade mode, and the gate high in the gated one (R129). -/
def cascadeEnabled (s : State) : Bool :=
  running .b s && (inputMode .b s.timerB.control == .cascade || (inputMode .b s.timerB.control == .cascadeGated && s.gate))

/-- `Cascade()`: timer A's underflow feeds timer B (R129). -/
def cascade (s : State) : State := if cascadeEnabled s then schedule .countB1 s else s

/-- The underflow actions, in the order of R125; only timer A cascades. -/
def underflow (x : TimerId) (s : State) : State :=
  let s := schedule x.load0 (oneShotStop x (underflowOutput x (raiseCause x.cause s)))
  match x with
  | .a => cascade s
  | .b => s

/-- The whole step of timer X in a TICK (R166 steps 3 and 4). -/
def timerStep (x : TimerId) (s : State) : State :=
  let s := countStep x s
  if underflows x s then underflow x s else s

/-- Whether timer X's step raises a cause, the contribution of X to `newCause` (R166). -/
def underflowsInStep (x : TimerId) (s : State) : Bool := underflows x (countStep x s)

/-- A write of the low byte of a latch: nothing is scheduled (R113, R115). -/
def writeLatchLow (x : TimerId) (v : Byte) (s : State) : State :=
  s.setTimer x { s.timer x with latch := withLowByte (s.timer x).latch v }

/-- A write of the high byte of a latch: a stopped timer is loaded by the TICK of the next clock (R114, R116). -/
def writeLatchHigh (x : TimerId) (v : Byte) (s : State) : State :=
  let s := s.setTimer x { s.timer x with latch := withHighByte (s.timer x).latch v }
  if running x s then s else schedule x.load0 (absorb s)

/-- WR_TALO (R113). -/
def execWrTalo (db : Byte) (s : State) : StepResult := .next (writeLatchLow .a db s)

/-- WR_TAHI (R114). -/
def execWrTahi (db : Byte) (s : State) : StepResult := .next (writeLatchHigh .a db s)

/-- WR_TBLO (R115). -/
def execWrTblo (db : Byte) (s : State) : StepResult := .next (writeLatchLow .b db s)

/-- WR_TBHI (R116). -/
def execWrTbhi (db : Byte) (s : State) : StepResult := .next (writeLatchHigh .b db s)

/-- RD_TALO (R121). -/
def execRdTalo (s : State) : StepResult := .next (returnByte (lowByte (logicalCounter .a s)) s)

/-- RD_TAHI (R122). -/
def execRdTahi (s : State) : StepResult := .next (returnByte (highByte (logicalCounter .a s)) s)

/-- RD_TBLO (R123). -/
def execRdTblo (s : State) : StepResult := .next (returnByte (lowByte (logicalCounter .b s)) s)

/-- RD_TBHI (R124). -/
def execRdTbhi (s : State) : StepResult := .next (returnByte (highByte (logicalCounter .b s)) s)

/-- GATE (R130). -/
def execGate (g : Bool) (s : State) : StepResult := .next { s with gate := g }

end Sys2Proof.Machine
end

