-- ==== Sys2Proof/Machine/Clock.lean ====
section
/-! DEFINITION. The per-clock transition TICK and the Idle Optimizer (R165 to R174). -/

namespace Sys2Proof.Machine

/-- Step 6 of an Active TICK, the shift (R83, R166). -/
def shiftStep (s : State) : State := { s with pending := shiftPipe s.pending s.feed }

/-- `ActiveTick()`, the order of steps of R166.  The working copy `p` of `pending` is held in `pending` itself: no step reads the
old value, and the shift reads only `p` and `feed`. -/
def activeTick (s : State) : State :=
  let s := pcReturnStep (pbLowStep s)
  let newCauseA := underflowsInStep .a s
  let s := timerStep .a s
  let newCauseB := underflowsInStep .b s
  let s := timerStep .b s
  shiftStep (interruptStep (newCauseA || newCauseB) s)

/-- Pre-advance of a running counter by `n` clocks (R168). -/
def preAdvanced (x : TimerId) (n : Nat) (s : State) : Timer :=
  if counting x s then { s.timer x with counter := (s.timer x).counter - BitVec.ofNat 16 n } else s.timer x

/-- `min{ cntX : X ∈ {A, B}, runX }`, the clocks until the nearer underflow; `none` when no timer runs (R168). -/
def clocksToUnderflow (s : State) : Option Nat :=
  match counting .a s, counting .b s with
  | false, false => none
  | true, false => some s.timerA.counter.toNat
  | false, true => some s.timerB.counter.toNat
  | true, true => some (min s.timerA.counter.toNat s.timerB.counter.toNat)

/-- `TryEnterIdle()`, the transition Active→Idle (R168). -/
def tryEnterIdle (s : State) : State :=
  if s.config.idleEnable && steady s.pending s.feed then
    match clocksToUnderflow s with
    | none => { s with idle := true, idleLeft := 0 }
    | some k =>
      if 1 ≤ k ∧ s.config.idleMin ≤ k - 1 then
        { s with timerA := preAdvanced .a (k - 1) s, timerB := preAdvanced .b (k - 1) s, idle := true, idleLeft := k - 1 }
      else s
  else s

/-- `IdleTick()`: count the skipped clocks down and wake at 0 (R169). -/
def idleTick (s : State) : State :=
  if counting .a s || counting .b s then
    { s with idleLeft := s.idleLeft - 1, idle := !(s.idleLeft - 1 == 0) }
  else s

/-- One system clock (R165). -/
def tick (s : State) : State := if s.idle then idleTick s else tryEnterIdle (activeTick s)

/-- `n` system clocks with no other operation between them (`TICKS n` of R80). -/
def ticks : Nat → State → State
  | 0, s => s
  | n + 1, s => ticks n (tick s)

/-- TICK (R165); there is no state in which it is refused. -/
def execTick (s : State) : StepResult := .next (tick s)

end Sys2Proof.Machine
end

