-- ==== Sys2Proof/Machine/Reset.lean ====
section
/-! DEFINITION. RESET (R205). -/

namespace Sys2Proof.Machine

/-- Every state variable of the chip takes its value of R38; the inputs, the parameters and the environment's side of the bus stay
(R32, R205). -/
def resetChip (s : State) : State :=
  { State.reset with
    paExt := s.paExt, pbExt := s.pbExt, gate := s.gate
    config := s.config, stimulus := s.stimulus, returned := s.returned }

/-- RESET (R205). -/
def execReset (s : State) : StepResult := .next (resetChip s)

end Sys2Proof.Machine
end

