-- ==== Sys2Proof/Machine/Dispatch.lean ====
section
/-! DEFINITION. One arm per operation, each a direct call of its meaning. -/

namespace Sys2Proof.Machine

def exec (i : Instr) (s : State) : Host.Outcome State Fault Refusal :=
  match i with
  | .tick => Sys2Proof.Machine.execTick s
  | .reset => Sys2Proof.Machine.execReset s
  | .rdPra => Sys2Proof.Machine.execRdPra s
  | .rdPrb => Sys2Proof.Machine.execRdPrb s
  | .rdDdra => Sys2Proof.Machine.execRdDdra s
  | .rdDdrb => Sys2Proof.Machine.execRdDdrb s
  | .rdTalo => Sys2Proof.Machine.execRdTalo s
  | .rdTahi => Sys2Proof.Machine.execRdTahi s
  | .rdTblo => Sys2Proof.Machine.execRdTblo s
  | .rdTbhi => Sys2Proof.Machine.execRdTbhi s
  | .rdTod10 => Sys2Proof.Machine.execRdTod10 s
  | .rdTodsec => Sys2Proof.Machine.execRdTodsec s
  | .rdTodmin => Sys2Proof.Machine.execRdTodmin s
  | .rdTodhr => Sys2Proof.Machine.execRdTodhr s
  | .rdSdr => Sys2Proof.Machine.execRdSdr s
  | .rdIcr => Sys2Proof.Machine.execRdIcr s
  | .rdCra => Sys2Proof.Machine.execRdCra s
  | .rdCrb => Sys2Proof.Machine.execRdCrb s
  | .wrPra db => Sys2Proof.Machine.execWrPra db s
  | .wrPrb db => Sys2Proof.Machine.execWrPrb db s
  | .wrDdra db => Sys2Proof.Machine.execWrDdra db s
  | .wrDdrb db => Sys2Proof.Machine.execWrDdrb db s
  | .wrTalo db => Sys2Proof.Machine.execWrTalo db s
  | .wrTahi db => Sys2Proof.Machine.execWrTahi db s
  | .wrTblo db => Sys2Proof.Machine.execWrTblo db s
  | .wrTbhi db => Sys2Proof.Machine.execWrTbhi db s
  | .wrTod10 db => Sys2Proof.Machine.execWrTod10 db s
  | .wrTodsec db => Sys2Proof.Machine.execWrTodsec db s
  | .wrTodmin db => Sys2Proof.Machine.execWrTodmin db s
  | .wrTodhr db => Sys2Proof.Machine.execWrTodhr db s
  | .wrSdr db => Sys2Proof.Machine.execWrSdr db s
  | .wrImr db => Sys2Proof.Machine.execWrImr db s
  | .wrCra db => Sys2Proof.Machine.execWrCra db s
  | .wrCrb db => Sys2Proof.Machine.execWrCrb db s
  | .inpa v => Sys2Proof.Machine.execInpa v s
  | .inpb v => Sys2Proof.Machine.execInpb v s
  | .gate g => Sys2Proof.Machine.execGate g s
  | .cause c => Sys2Proof.Machine.execCause c s

end Sys2Proof.Machine
end

