-- ==== Sys2Proof/Machine/Step.lean ====
section
/-! DEFINITION. One step of the machine: the environment's next operation is decoded and applied (R14, R57, R76). -/

namespace Sys2Proof.Machine

/-- Apply the next stimulus word.  With none left the chip waits for the environment and nothing changes (R208; DESIGN CHOICE,
assumption 1); a reserved word is refused (R76). -/
def step (s : State) : Host.Outcome State Fault Refusal :=
  match s.stimulus with
  | [] => .next s
  | w :: rest =>
    match decode w with
    | none => .refused (.reservedWord w)
    | some i => exec i { s with stimulus := rest }

/-- Whether a word spells CAUSE, the one operation that needs the parameter `CAUSE_HOOK` (R76, R162). -/
def needsCauseHook (w : StimulusWord) : Bool :=
  w.getLsbD 15 && w.getLsbD 14 && w.getLsbD 13

/-- The environment issues the word next, before what is already queued.  An environment that issues CAUSE is one with the hook, so
placing a CAUSE word turns `CAUSE_HOOK` on (assumption 1).  A number longer than the one word of R65 is cut to its low 16 bits
(DESIGN CHOICE, assumption 15). -/
def State.withFetchWord (s : State) (nbits w : Nat) : State :=
  { s with
    stimulus := tableWord nbits w :: s.stimulus
    config := { s.config with causeHook := s.config.causeHook || needsCauseHook (tableWord nbits w) } }

end Sys2Proof.Machine
end

