-- ==== Sys2Proof/Machine/Bus.lean ====
section
/-! DEFINITION. The bus as the pseudocode primitives of R10 see it (R46, R47, R64, R225), sequences of operations (R57), and the
notation of R79 and R80. -/

namespace Sys2Proof.Machine

/-- `MemRead(addr, 1)`: the bus read of register `addr[3:0]` (R10, R47). -/
def memRead (addr : Nat) (s : State) : StepResult := exec (readOf (BitVec.ofNat 4 addr)) s

/-- `MemWrite(addr, 1, v)`: the bus write of register `addr[3:0]` (R10, R47). -/
def memWrite (addr : Nat) (v : Byte) (s : State) : StepResult := exec (writeOf (BitVec.ofNat 4 addr) v) s

/-- Operations take effect one at a time, in the order they are issued, each complete before the next begins (R57). -/
def execAll : List Instr → State → StepResult
  | [], s => .next s
  | i :: is, s =>
    match exec i s with
    | .next t => execAll is t
    | .fault r => .fault r
    | .refused r => .refused r

/-- The write of control register X. -/
def controlWrite : TimerId → Byte → Instr
  | .a, v => .wrCra v
  | .b, v => .wrCrb v

/-- The write of the low byte of latch X. -/
def latchLowWrite : TimerId → Byte → Instr
  | .a, v => .wrTalo v
  | .b, v => .wrTblo v

/-- The write of the high byte of latch X. -/
def latchHighWrite : TimerId → Byte → Instr
  | .a, v => .wrTahi v
  | .b, v => .wrTbhi v

/-- The read of the low byte of counter X. -/
def counterLowRead : TimerId → Instr
  | .a => .rdTalo
  | .b => .rdTblo

/-- The read of the high byte of counter X. -/
def counterHighRead : TimerId → Instr
  | .a => .rdTahi
  | .b => .rdTbhi

/-- The pseudo-operations of R80. -/
inductive Pseudo where
  /-- `TICKS n`. -/
  | ticks (n : Nat)
  /-- `LDTA $hhll`, `LDTB $hhll`. -/
  | loadTimer (x : TimerId) (v : Word)
  /-- `ACK`. -/
  | ack
  /-- `IRQON $mm`, mm ⊆ 0x1F. -/
  | irqOn (m : Causes)
  /-- `IRQOFF $mm`, mm ⊆ 0x1F. -/
  | irqOff (m : Causes)
  deriving DecidableEq, Repr

/-- The expansion of a pseudo-operation (R80). -/
def Pseudo.expand : Pseudo → List Instr
  | .ticks n => List.replicate n .tick
  | .loadTimer x v => [latchLowWrite x (lowByte v), latchHighWrite x (highByte v)]
  | .ack => [.rdIcr]
  | .irqOn m => [.wrImr (0b100#3 ++ m)]
  | .irqOff m => [.wrImr (0b000#3 ++ m)]

/-- The register names a read line `R <reg>` accepts, by address; `R IMR` is not accepted (R15, R79). -/
def readNames : List String :=
  ["PRA", "PRB", "DDRA", "DDRB", "TALO", "TAHI", "TBLO", "TBHI",
   "TOD10", "TODSEC", "TODMIN", "TODHR", "SDR", "ICR", "CRA", "CRB"]

/-- The register names a write line `W <reg>,$hh` accepts, by address; `W ICR` is not accepted (R15, R79). -/
def writeNames : List String :=
  ["PRA", "PRB", "DDRA", "DDRB", "TALO", "TAHI", "TBLO", "TBHI",
   "TOD10", "TODSEC", "TODMIN", "TODHR", "SDR", "IMR", "CRA", "CRB"]

/-- The operation a line `R <reg>` spells (R79). -/
def assembleRead (reg : String) : Option Instr :=
  (readNames.idxOf? reg).map fun k => readOf (BitVec.ofNat 4 k)

/-- The operation a line `W <reg>,$hh` spells (R79). -/
def assembleWrite (reg : String) (db : Byte) : Option Instr :=
  (writeNames.idxOf? reg).map fun k => writeOf (BitVec.ofNat 4 k) db

end Sys2Proof.Machine
end

