-- ==== Sys2Proof/Safety.lean ====
section
/-! DEFINITION. What claims are stated in: the abstraction under which the Idle Optimizer is invisible (R175), the invariant of every
reachable state (R40, R93, R150, R183), and the runs the spec itself calls outside what it describes (R127). -/

namespace Sys2Proof.Machine

/-- `abs(σ)` of R175: the stored counters replaced by the logical ones, `idle` and `idleLeft` 0. -/
def State.abs (s : State) : State :=
  { s with timerA := reconciled .a s, timerB := reconciled .b s, idle := false, idleLeft := 0 }

/-- The state of the reference machine, `IDLE_ENABLE = false` (R182), that `s` stands for. -/
def State.reference (s : State) : State := { s.abs with config := { s.config with idleEnable := false } }

/-- The outcome of the reference machine that an outcome stands for. -/
def referenceOutcome : StepResult → StepResult
  | .next s => .next s.reference
  | .fault r => .fault r
  | .refused r => .refused r

/-- The part of the invariant that concerns one timer. -/
structure TimerInv (x : TimerId) (s : State) : Prop where
  /-- LOAD is a strobe and is never stored (R40 item 2). -/
  load_not_stored : ctlLoad (s.timer x).control = false
  /-- `feed[CountX0]` is set exactly when the timer counts system clocks (R40 item 4). -/
  feed_count : hasBit s.feed x.count0 = countsSystemClock x (s.timer x).control
  /-- `feed[OneShotX0] = CRX[3]` (R40 item 4). -/
  feed_oneShot : hasBit s.feed x.oneShot = ctlOneShot (s.timer x).control
  /-- No TICK decrements a counter whose value is 0 (R40 item 5, R120). -/
  no_decrement_of_zero : hasBit s.pending x.count3 = true → hasBit s.pending x.load1 = false → (s.timer x).counter ≠ 0#16
  /-- A scheduled return to low belongs to a pulse the timer is driving (R89, R142). -/
  pulse_in_flight : hasBit s.pending x.pbLow1 = true →
    ctlPbOn (s.timer x).control = true ∧ ctlToggleMode (s.timer x).control = false
  /-- Between operations no pulse end stands at stage 0: only a TICK sets it, and shifts it on (R89). -/
  pulse_shifted : hasBit s.pending x.pbLow0 = false
  /-- In pulse mode the pin is high exactly in the clock after an underflow (R89, R142). -/
  pulse_output : ctlPbOn (s.timer x).control = true → ctlToggleMode (s.timer x).control = false →
    (s.timer x).output = hasBit s.pending x.pbLow1
  /-- In toggle mode the pin follows the toggle bit (R125, R142). -/
  toggle_output : ctlPbOn (s.timer x).control = true → ctlToggleMode (s.timer x).control = true →
    (s.timer x).output = (s.timer x).toggle
  /-- While Idle a running timer has been pre-advanced to at least 1 and its logical counter does not wrap
  (R40 item 6, R183). -/
  idle_counter : s.idle = true → hasBit s.pending x.count3 = true →
    1 ≤ (s.timer x).counter.toNat ∧ 1 ≤ s.idleLeft ∧ (s.timer x).counter.toNat + s.idleLeft ≤ 65535

/-- The invariant of every reachable state. -/
structure State.Inv (s : State) : Prop where
  /-- `IDLE_MIN ≥ 1` (R173). -/
  config_wf : s.config.wf
  /-- `feed` holds only its four bits (R40 item 3, R93). -/
  feed_used : s.feed &&& ~~~feedBits = 0#32
  /-- `pending[31:22] = 0` (R40 item 3, R93). -/
  pending_used : s.pending &&& ~~~usedBits = 0#32
  /-- What holds of timer A. -/
  timer_a : TimerInv .a s
  /-- What holds of timer B. -/
  timer_b : TimerInv .b s
  /-- An enabled cause has reached the line or is on its way (R150). -/
  enabled_cause_reaches_line : enabledCauses s ≠ 0#5 →
    s.irq = true ∨ hasBit s.pending .int0 = true ∨ hasBit s.pending .int1 = true
  /-- The line is asserted, or about to be, only while a cause is recorded (R40 item 1 with R188). -/
  line_has_cause : s.irq = true ∨ hasBit s.pending .int0 = true ∨ hasBit s.pending .int1 = true → s.icr ≠ 0#5
  /-- Without the CAUSE hook `ICR[4:2]` are always 0 (R162). -/
  external_causes_need_hook : s.config.causeHook = false → s.icr.extractLsb' 2 3 = 0#3
  /-- A low handshake line is on its way up (R92, R107). -/
  handshake_returns : s.pcLine = false → hasBit s.pending .pcHigh0 = true ∨ hasBit s.pending .pcHigh1 = true
  /-- `idle = 1` implies `Steady(pending, feed)` (R40 item 6). -/
  idle_steady : s.idle = true → steady s.pending s.feed = true
  /-- With `IDLE_ENABLE = false` the chip is never Idle (R182). -/
  idle_needs_enable : s.config.idleEnable = false → s.idle = false
  /-- `idleLeft` is 0 when Active, and when Idle with no running timer (R169, R170). -/
  idle_left : s.idle = false ∨ (hasBit s.pending .countA3 = false ∧ hasBit s.pending .countB3 = false) → s.idleLeft = 0

/-- No count and no load bit of timer X is in `pending`: the timer is at rest, its start-up delay and its drain over (R87, R88). -/
def chainEmpty (x : TimerId) (s : State) : Bool :=
  !hasBit s.pending x.count0 && !hasBit s.pending x.count1 && !hasBit s.pending x.count2 && !hasBit s.pending x.count3 &&
  !hasBit s.pending x.load0 && !hasBit s.pending x.load1

/-- All four count bits of timer X are in `pending`: the timer decrements in every coming clock until it is stopped (R87). -/
def chainFull (x : TimerId) (s : State) : Bool :=
  hasBit s.pending x.count0 && hasBit s.pending x.count1 && hasBit s.pending x.count2 && hasBit s.pending x.count3

/-- The state of timer X right after an underflow in continuous system-clock mode: the counter is 0, the reload is due in the next
clock and the count chain is full (R125, R132). -/
def justUnderflowed (x : TimerId) (s : State) : Bool :=
  (s.timer x).counter == 0#16 && hasBit s.pending x.load1 && !hasBit s.pending x.load0 && chainFull x s &&
  hasBit s.feed x.count0 && !oneShotSelected x s

/-- The external-pulse input modes together with START: the model is total there, the timer standing still, and the spec says that
this does not describe the chip (R127; assumption 5). -/
def externalPulseMode (x : TimerId) (s : State) : Bool :=
  running x s && inputMode x (s.timer x).control == .externalPulses

/-- A state inside what the spec describes: no timer is started in an external-pulse mode (R127). -/
def State.described (s : State) : Bool := !externalPulseMode .a s && !externalPulseMode .b s

end Sys2Proof.Machine
end

