-- ==== Sys2Proof/Certificates/Slice0/Obligations.lean ====
section
/-! DEFINITION. The statements for the provers.  Each docstring names the rules the statement formalises and, where the spec marks
the rule as its own decision or the clause is the model's choice, says so. -/

open Sys2Proof Sys2Proof.Machine

/-- For every operation i that is well formed (every operand at every value its encoding admits), decode (encode i) is i.
(30_encoding.md section 3, 30_encoding.md section 4, 92_eei_decisions.md D29.) -/
def Obligations.DecodeOfEncodeIsTheOperation : Prop :=
  ∀ i : Instr, i.wf = true → decode (encode i) = some i

/-- For every stimulus word w, if the decoder reads operation i from w, then encode i is w and i is well formed: the decoder drops no bit.
(30_encoding.md section 3, 30_encoding.md section 6, 92_eei_decisions.md D29.) -/
def Obligations.EncodeOfDecodeIsTheWord : Prop :=
  ∀ (w : StimulusWord) (i : Instr), decode w = some i → encode i = w ∧ i.wf = true

/-- For every word: what the decoder reads matches its own row of the opcode map; a word that matches the row of an operation is decoded to an operation of that row; two rows that match one word are one row; and the decoder refuses exactly the words that match no row.
(30_encoding.md section 4, 30_encoding.md section 6, 92_eei_decisions.md D29.) -/
def Obligations.WordSpellsTheRowItMatches : Prop :=
  (∀ (w : StimulusWord) (i : Instr), decode w = some i → (opcodeRow i).spells w = true) ∧
  (∀ (w : StimulusWord) (i : Instr), (opcodeRow i).spells w = true → ∃ j, decode w = some j ∧ opcodeRow j = opcodeRow i) ∧
  (∀ (w : StimulusWord) (i j : Instr), (opcodeRow i).spells w = true → (opcodeRow j).spells w = true →
    opcodeRow i = opcodeRow j) ∧
  (∀ w : StimulusWord, decode w = none ↔ ∀ i : Instr, (opcodeRow i).spells w = false)

/-- One word of each format, with its bits written out from the spec's formats (TICK 0x0000, RESET 0x6000, R ICR 0x2D00, W IMR,$81 0x4D81, W TALO,$09 0x4409, INPB $A7 0xA0A7, GATE 1 0xC001, CAUSE $10 0xE010), decodes to its operation, and a read with a nonzero data field is refused.
(30_encoding.md section 3, 30_encoding.md section 4.) -/
def Obligations.SampleWordsDecode : Prop :=
  decode 0x0000#16 = some .tick ∧ decode 0x6000#16 = some .reset ∧ decode 0x2D00#16 = some .rdIcr ∧
  decode 0x4D81#16 = some (.wrImr 0x81#8) ∧ decode 0x4409#16 = some (.wrTalo 0x09#8) ∧ decode 0xA0A7#16 = some (.inpb 0xA7#8) ∧
  decode 0xC001#16 = some (.gate true) ∧ decode 0xE010#16 = some (.cause 0x10#8) ∧ decode 0x2D01#16 = none

/-- If the next stimulus word is w and it decodes to i, the step is exec of i at the state with w taken off the sequence and nothing else changed; if w is reserved, the step is refused by name; if no word is left, the step answers the same state, the chip waiting for the environment. That the sequence stands in the state, and that a step without an operation answers a next state, is the model's choice (assumption 1).
(20_memory.md section 5, 30_encoding.md section 6, 10_state.md section 1, 70_reset_and_hazards.md section 1.) -/
def Obligations.StepAppliesTheDecodedOperation : Prop :=
  (∀ (s : State) (w : StimulusWord) (rest : List StimulusWord), s.stimulus = w :: rest →
    (∀ i, decode w = some i → step s = exec i { s with stimulus := rest }) ∧
    (decode w = none → step s = .refused (.reservedWord w))) ∧
  (∀ s : State, s.stimulus = [] → step s = .next s)

/-- For every state, RESET answers the state in which every chip variable has the value of the reset table (pending, feed, CRA, CRB, ICR, IMR, irq, togX, outX, ports, tod 0; latches and counters 0xFFFF; pcLine 1; Active), and PA_ext, PB_ext, gate and the parameters are unchanged. The environment's two lists, which the model keeps in State, are unchanged (assumptions 1 and 2). The values of latches, counters, ports and handshake line are the spec's decisions D24, D26 and D28.
(70_reset_and_hazards.md section 1, 10_state.md section 11, 92_eei_decisions.md D26.) -/
def Obligations.ResetGivesEveryVariableItsValue : Prop :=
  ∀ s : State, exec .reset s = .next
    { pra := 0x00, prb := 0x00, ddra := 0x00, ddrb := 0x00, pcLine := true
      timerA := { latch := 0xFFFF, counter := 0xFFFF, control := 0x00, toggle := false, output := false }
      timerB := { latch := 0xFFFF, counter := 0xFFFF, control := 0x00, toggle := false, output := false }
      icr := 0, imr := 0, irq := false
      tod10 := 0x00, todSec := 0x00, todMin := 0x00, todHr := 0x00
      pending := 0, feed := 0, idle := false, idleLeft := 0
      paExt := s.paExt, pbExt := s.pbExt, gate := s.gate
      config := s.config, stimulus := s.stimulus, returned := s.returned }

/-- For every state and every n, RESET answers a state t such that after n TICKs the abstraction of the state (logical counters, idle dropped) is that of t, and all outputs are those of t: both port outputs 0xFF, both lines high.
(70_reset_and_hazards.md section 1, 44_clock_transition_idle.md section 2.) -/
def Obligations.ResetChipStaysQuiescent : Prop :=
  ∀ (s : State) (n : Nat), ∃ t, exec .reset s = .next t ∧ (ticks n t).abs = t.abs ∧
    outputsOf (ticks n t) = { paOut := 0xFF, pbOut := 0xFF, irqN := true, pcN := true }

/-- For every operation and state, exec answers a next state, or the operation is CAUSE, CAUSE_HOOK is false and exec refuses it by name; it never faults.
(60_exceptions.md section 1, 44_clock_transition_idle.md section 3, 30_encoding.md section 6.) -/
def Obligations.EveryOperationCompletesButCauseWithoutHook : Prop :=
  ∀ (i : Instr) (s : State), (∃ t, exec i s = .next t) ∨
    (∃ c, i = .cause c ∧ s.config.causeHook = false ∧ exec i s = .refused .causeHookAbsent)

/-- For every address, byte and state, the bus read and the bus write of the address answer a next state; the read of SDR returns 0 and changes nothing else, and the write of SDR changes nothing.
(R54.) -/
def Obligations.NoBusAccessFails : Prop :=
  (∀ (addr : Nat) (s : State), ∃ t, memRead addr s = .next t) ∧
  (∀ (addr : Nat) (v : Byte) (s : State), ∃ t, memWrite addr v s = .next t) ∧
  (∀ s : State, memRead 12 s = .next { s with returned := 0x00#8 :: s.returned }) ∧
  (∀ (v : Byte) (s : State), memWrite 12 v s = .next s)

/-- For every state, RD_PRA returns (PRA | ~DDRA) & PA_ext, the bus value and not the latch, and the rest of the state is unchanged.
(R99, R96.) -/
def Obligations.ReadPortAReturnsTheBusValue : Prop :=
  ∀ s : State, exec .rdPra s = .next { s with returned := ((s.pra ||| ~~~s.ddra) &&& s.paExt) :: s.returned }

/-- For every state and byte v: WR_PRA stores PRA and gives PA_out = v | ~DDRA; WR_DDRA stores DDRA and gives PA_out = PRA | ~v; WR_DDRB stores DDRB and gives PB_out whose bits 0 to 5 are those of PRB | ~v and whose bits 6 and 7 are the timer outputs where PBON is 1, else those of PRB | ~v. That the timer output overrides DDRB is the spec's decision D17 and general knowledge (assumption 17, PRESUMED), that PBON is bit 1 is D11 (assumption 4, PRESUMED).
(41_port_unit.md section 1, 41_port_unit.md section 2, 41_port_unit.md section 4, 10_state.md section 5, 92_eei_decisions.md D11, 92_eei_decisions.md D17.) -/
def Obligations.PortWritesAndTheirOutputs : Prop :=
  (∀ (v : Byte) (s : State), exec (.wrPra v) s = .next { s with pra := v } ∧ paOut { s with pra := v } = v ||| ~~~s.ddra) ∧
  (∀ (v : Byte) (s : State), exec (.wrDdra v) s = .next { s with ddra := v } ∧ paOut { s with ddra := v } = s.pra ||| ~~~v) ∧
  (∀ (v : Byte) (s : State), exec (.wrDdrb v) s = .next { s with ddrb := v } ∧
    (∀ k, k < 6 → (pbOut { s with ddrb := v }).getLsbD k = (s.prb ||| ~~~v).getLsbD k) ∧
    (pbOut { s with ddrb := v }).getLsbD 6 =
      (if s.timerA.control.getLsbD 1 then s.timerA.output else (s.prb ||| ~~~v).getLsbD 6) ∧
    (pbOut { s with ddrb := v }).getLsbD 7 =
      (if s.timerB.control.getLsbD 1 then s.timerB.output else (s.prb ||| ~~~v).getLsbD 7))

/-- For every state, RD_PRB absorbs, returns PB_out & PB_ext as before the pulse, sets pcLine to 0 and sets PCHigh0 (bit 20 of pending), and nothing else changes; unless an earlier access's return is due in the coming TICK, the line is still low after that TICK and high after the next. The bit position is the spec's decision D3, the chain and its timing D19; that the access completes, also while the line is low already, is the model's choice (assumption 11) between the treatments the spec offers.
(41_port_unit.md section 3, 41_port_unit.md section 5, 40_delay_pipeline.md section 1, 92_eei_decisions.md D3, 92_eei_decisions.md D19.) -/
def Obligations.ReadPortBReturnsTheBusValueAndPulses : Prop :=
  ∀ s : State, ∃ t, exec .rdPrb s = .next t ∧
    t = { absorb s with
      pcLine := false, pending := s.pending ||| 0x100000#32, returned := (pbOut s &&& s.pbExt) :: s.returned } ∧
    (hasBit s.pending .pcHigh1 = false → (ticks 1 t).pcLine = false ∧ (ticks 2 t).pcLine = true)

/-- For every state and byte v, WR_PRB absorbs, stores PRB = v, sets pcLine to 0 and sets PCHigh0 (bit 20 of pending), and nothing else changes; unless an earlier access's return is due in the coming TICK, the line is still low after that TICK and high after the next; PB_out follows: bits 0 to 5 are those of v | ~DDRB, bits 6 and 7 the timer outputs where PBON is 1, else those of v | ~DDRB. The override of DDRB is the spec's decision D17 and general knowledge (assumption 17, PRESUMED), PBON at bit 1 is D11 (assumption 4, PRESUMED), the position of PCHigh0 is D3, the chain and its timing D19; that the access completes, also while the line is low already, is the model's choice (assumption 11).
(41_port_unit.md section 1, 41_port_unit.md section 3, 41_port_unit.md section 5, 40_delay_pipeline.md section 1, 10_state.md section 5, 92_eei_decisions.md D3, 92_eei_decisions.md D11, 92_eei_decisions.md D17, 92_eei_decisions.md D19.) -/
def Obligations.WritePortBStoresAndPulses : Prop :=
  ∀ (v : Byte) (s : State), ∃ t, exec (.wrPrb v) s = .next t ∧
    t = { absorb s with prb := v, pcLine := false, pending := s.pending ||| 0x100000#32 } ∧
    (hasBit s.pending .pcHigh1 = false → (ticks 1 t).pcLine = false ∧ (ticks 2 t).pcLine = true) ∧
    (∀ k, k < 6 → (pbOut t).getLsbD k = (v ||| ~~~s.ddrb).getLsbD k) ∧
    (pbOut t).getLsbD 6 = (if s.timerA.control.getLsbD 1 then s.timerA.output else (v ||| ~~~s.ddrb).getLsbD 6) ∧
    (pbOut t).getLsbD 7 = (if s.timerB.control.getLsbD 1 then s.timerB.output else (v ||| ~~~s.ddrb).getLsbD 7)

/-- For RD_PRB and WR_PRB from every state in which PCHigh1 is in pending: the line is low after the access, high after the coming TICK and high after the next, in which the return that this access scheduled falls. The merging is the spec's decision D19; that the model does not refuse the second access is its choice (assumption 11).
(41_port_unit.md section 5, 70_reset_and_hazards.md section 3, 92_eei_decisions.md D19.) -/
def Obligations.PortBAccessesMergeTheirPulses : Prop :=
  ∀ (i : Instr) (s : State), (i = .rdPrb ∨ ∃ v, i = .wrPrb v) → hasBit s.pending .pcHigh1 = true →
    ∃ t, exec i s = .next t ∧ t.pcLine = false ∧ hasBit t.pending .pcHigh0 = true ∧
      (ticks 1 t).pcLine = true ∧ (ticks 2 t).pcLine = true

/-- If in a state a low handshake line implies PCHigh0 or PCHigh1 in pending, then so it does in every next state a step answers. The chain is the spec's decision D19.
(41_port_unit.md section 5, 92_eei_decisions.md D19.) -/
def Obligations.LowHandshakeLineIsOnItsWayUp : Prop :=
  ∀ s t : State, (s.pcLine = false → hasBit s.pending .pcHigh0 = true ∨ hasBit s.pending .pcHigh1 = true) →
    step s = .next t → t.pcLine = false → hasBit t.pending .pcHigh0 = true ∨ hasBit t.pending .pcHigh1 = true

/-- For every state, INPA v sets PA_ext, INPB v sets PB_ext, GATE g sets gate, and no chip state, pipeline bit or Idle state changes. The inputs are the spec's decisions D13 and D18.
(41_port_unit.md section 8, 42_timer_unit.md section 5, 92_eei_decisions.md D18.) -/
def Obligations.InputOperationsChangeTheirInputOnly : Prop :=
  (∀ (v : Byte) (s : State), exec (.inpa v) s = .next { s with paExt := v }) ∧
  (∀ (v : Byte) (s : State), exec (.inpb v) s = .next { s with pbExt := v }) ∧
  (∀ (g : Bool) (s : State), exec (.gate g) s = .next { s with gate := g })

/-- For every state and byte v, the reads of DDRA, DDRB, CRA, CRB and the four TOD registers return the register as stored and leave the rest of the state unchanged, and each TOD write stores its byte and changes nothing else. That the stored register is returned is the spec's decision D25, raw TOD storage D24.
(41_port_unit.md section 4, 43_control_interrupt.md section 1, 43_control_interrupt.md section 5, 92_eei_decisions.md D24, 92_eei_decisions.md D25.) -/
def Obligations.StoredRegistersReadBackAndTodIsRaw : Prop :=
  ∀ (v : Byte) (s : State),
    exec .rdDdra s = .next { s with returned := s.ddra :: s.returned } ∧
    exec .rdDdrb s = .next { s with returned := s.ddrb :: s.returned } ∧
    exec .rdCra s = .next { s with returned := s.timerA.control :: s.returned } ∧
    exec .rdCrb s = .next { s with returned := s.timerB.control :: s.returned } ∧
    exec .rdTod10 s = .next { s with returned := s.tod10 :: s.returned } ∧
    exec .rdTodsec s = .next { s with returned := s.todSec :: s.returned } ∧
    exec .rdTodmin s = .next { s with returned := s.todMin :: s.returned } ∧
    exec .rdTodhr s = .next { s with returned := s.todHr :: s.returned } ∧
    exec (.wrTod10 v) s = .next { s with tod10 := v } ∧ exec (.wrTodsec v) s = .next { s with todSec := v } ∧
    exec (.wrTodmin v) s = .next { s with todMin := v } ∧ exec (.wrTodhr v) s = .next { s with todHr := v }

/-- For every state, RD_SDR returns 0x00 and changes nothing else, whatever was written before, and WR_SDR leaves every state variable unchanged.
(R160, R161.) -/
def Obligations.SdrReadsZeroAndIgnoresWrites : Prop :=
  (∀ s : State, exec .rdSdr s = .next { s with returned := 0x00#8 :: s.returned }) ∧
  (∀ (v : Byte) (s : State), exec (.wrSdr v) s = .next s)

/-- For every state and byte v, the write of the low byte keeps bits 15:8 of the latch, puts v in bits 7:0, schedules nothing whether the timer runs or not, and leaves the counter and everything else unchanged.
(R113, R115.) -/
def Obligations.LatchLowWritesChangeTheLowByteOnly : Prop :=
  (∀ (v : Byte) (s : State), exec (.wrTalo v) s = .next
    { s with timerA := { s.timerA with latch := (s.timerA.latch &&& 0xFF00#16) ||| v.setWidth 16 } }) ∧
  (∀ (v : Byte) (s : State), exec (.wrTblo v) s = .next
    { s with timerB := { s.timerB with latch := (s.timerB.latch &&& 0xFF00#16) ||| v.setWidth 16 } })

/-- For every state and byte v: with START = 1 only bits 15:8 of the latch change; with START = 0 the chip also becomes Active with its counters absorbed, and LoadA0 (bit 8) or LoadB0 (bit 10) is set in pending. That stopped means START = 0 is the spec's decision D36.
(42_timer_unit.md section 1, 92_eei_decisions.md D36.) -/
def Obligations.LatchHighWritesScheduleALoadWhenStopped : Prop :=
  (∀ (v : Byte) (s : State), exec (.wrTahi v) s = .next
    (if s.timerA.control.getLsbD 0 then
      { s with timerA := { s.timerA with latch := (s.timerA.latch &&& 0x00FF#16) ||| (v.setWidth 16 <<< 8) } }
    else
      { absorb s with
        timerA := { (absorb s).timerA with latch := (s.timerA.latch &&& 0x00FF#16) ||| (v.setWidth 16 <<< 8) }
        pending := s.pending ||| 0x000100#32 })) ∧
  (∀ (v : Byte) (s : State), exec (.wrTbhi v) s = .next
    (if s.timerB.control.getLsbD 0 then
      { s with timerB := { s.timerB with latch := (s.timerB.latch &&& 0x00FF#16) ||| (v.setWidth 16 <<< 8) } }
    else
      { absorb s with
        timerB := { (absorb s).timerB with latch := (s.timerB.latch &&& 0x00FF#16) ||| (v.setWidth 16 <<< 8) }
        pending := s.pending ||| 0x000400#32 }))

/-- For every timer, byte and state: after WR_TxHI with START = 0, and after WR_CRx with bit 4 = 1 whether the timer runs or not, the second TICK leaves the logical counter equal to the latch as the write left it. The strobe and the meaning of stopped are the spec's decisions D10 and D36.
(40_delay_pipeline.md section 3, 42_timer_unit.md section 1, 43_control_interrupt.md section 4, 92_eei_decisions.md D10.) -/
def Obligations.ScheduledLoadHappensInTheNextClock : Prop :=
  ∀ (x : TimerId) (v : Byte) (s : State) (i : Instr),
    ((i = latchHighWrite x v ∧ (s.timer x).control.getLsbD 0 = false) ∨ (i = controlWrite x v ∧ v.getLsbD 4 = true)) →
    ∃ t, exec i s = .next t ∧ logicalCounter x (ticks 2 t) = (t.timer x).latch

/-- For every state, RD_TxLO returns the logical counter modulo 256, RD_TxHI the logical counter divided by 256, the rest of the state (Idle mode included) is unchanged, and when the chip is Active the logical counter is the stored one.
(R121, R122, R123, R124.) -/
def Obligations.CounterReadsReturnTheLogicalCounter : Prop :=
  (∀ s : State,
    exec .rdTalo s = .next { s with returned := BitVec.ofNat 8 ((logicalCounter .a s).toNat % 256) :: s.returned } ∧
    exec .rdTahi s = .next { s with returned := BitVec.ofNat 8 ((logicalCounter .a s).toNat / 256) :: s.returned } ∧
    exec .rdTblo s = .next { s with returned := BitVec.ofNat 8 ((logicalCounter .b s).toNat % 256) :: s.returned } ∧
    exec .rdTbhi s = .next { s with returned := BitVec.ofNat 8 ((logicalCounter .b s).toNat / 256) :: s.returned }) ∧
  (∀ (x : TimerId) (s : State), s.idle = false → logicalCounter x s = (s.timer x).counter)

/-- For every state: the logical counter of a timer is the stored counter plus idleLeft when the chip is Idle and the timer's Count3 is set, else the stored counter; Absorb stores the logical counters, makes the chip Active, leaves the logical counters and every other variable unchanged, and does nothing to an Active chip. The representation is the spec's decision D28; outside the reachable states, where the sum can exceed 0xFFFF, that it wraps modulo 2^16 is the model's choice (assumption 10, DESIGN CHOICE).
(44_clock_transition_idle.md section 2, 92_eei_decisions.md D28.) -/
def Obligations.AbsorbKeepsTheLogicalCounters : Prop :=
  ∀ (x : TimerId) (s : State),
    logicalCounter x s =
      (s.timer x).counter + (if s.idle && hasBit s.pending x.count3 then BitVec.ofNat 16 s.idleLeft else 0#16) ∧
    absorb s =
      { s with
        timerA := { s.timerA with counter := logicalCounter .a s }
        timerB := { s.timerB with counter := logicalCounter .b s }
        idle := false
        idleLeft := if s.idle then 0 else s.idleLeft } ∧
    logicalCounter x (absorb s) = logicalCounter x s ∧ (s.idle = false → absorb s = s)

/-- For every timer and Active state, TICK answers a state whose logical counter is the latch if LoadX1 was set, else the counter minus 1 modulo 2^16 if CountX3 was set, else the counter as it was. The priority of the load and the modulus are the spec's decisions D6 and D35.
(42_timer_unit.md section 2, 92_eei_decisions.md D6, 92_eei_decisions.md D35.) -/
def Obligations.ActiveTickLoadsOrDecrements : Prop :=
  ∀ (x : TimerId) (s : State), s.idle = false → ∃ t, exec .tick s = .next t ∧
    logicalCounter x t =
      (if hasBit s.pending x.load1 then (s.timer x).latch
       else if hasBit s.pending x.count3 then (s.timer x).counter - 1#16
       else (s.timer x).counter)

/-- For every timer and every Active state whose feed holds only its four bits: if the counter reaches 0 (by rule R117) with Count2 set, the TICK sets the timer's cause bit, flips its toggle bit, schedules the reload for the next clock and leaves the counter 0; with PBON and toggle mode the output is the flipped toggle bit, with PBON and pulse mode it is high and its return to low is due in the next clock, without PBON it only ends a pulse that was due. If not, the cause bit, the toggle bit and the control register are unchanged, a load is due next exactly when LoadX0 was set, and the output only ends a pulse that was due. The underflow condition and the actions are the spec's decisions D7, D8 and D16.
(42_timer_unit.md section 2, 42_timer_unit.md section 4, 92_eei_decisions.md D7, 92_eei_decisions.md D8, 92_eei_decisions.md D16.) -/
def Obligations.UnderflowActionsOfATick : Prop :=
  ∀ (x : TimerId) (s : State), s.idle = false → s.feed &&& ~~~feedBits = 0#32 → ∃ t, exec .tick s = .next t ∧
    (nextCounter x s = 0#16 ∧ hasBit s.pending x.count2 = true →
      t.icr.getLsbD x.cause.code = true ∧
      (t.timer x).toggle = !(s.timer x).toggle ∧
      (t.timer x).counter = 0#16 ∧
      hasBit t.pending x.load1 = true ∧
      (t.timer x).output =
        (if (s.timer x).control.getLsbD 1 then
          (if (s.timer x).control.getLsbD 2 then !(s.timer x).toggle else true)
        else (s.timer x).output && !hasBit s.pending x.pbLow1) ∧
      ((s.timer x).control.getLsbD 1 = true → (s.timer x).control.getLsbD 2 = false → hasBit t.pending x.pbLow1 = true)) ∧
    (¬(nextCounter x s = 0#16 ∧ hasBit s.pending x.count2 = true) →
      t.icr.getLsbD x.cause.code = s.icr.getLsbD x.cause.code ∧
      (t.timer x).toggle = (s.timer x).toggle ∧
      (t.timer x).control = (s.timer x).control ∧
      hasBit t.pending x.load1 = hasBit s.pending x.load0 ∧
      (t.timer x).output = ((s.timer x).output && !hasBit s.pending x.pbLow1))

/-- For every timer and every state whose feed holds only its four bits, if the timer underflows in the coming TICK: with OneShotX0 in pending or feed, START is cleared and no other control bit, feed loses CountX0, and none of the timer's four count bits is in pending after the TICK, so the reloaded counter is not decremented; without it the control register is unchanged. The representation of the stop is the spec's decision D9.
(42_timer_unit.md section 4, 40_delay_pipeline.md section 3, 92_eei_decisions.md D9.) -/
def Obligations.OneShotUnderflowStopsTheTimer : Prop :=
  ∀ (x : TimerId) (s : State), s.feed &&& ~~~feedBits = 0#32 → underflowDue x s = true → ∃ t, exec .tick s = .next t ∧
    ((hasBit s.pending x.oneShot || hasBit s.feed x.oneShot) = true →
      (t.timer x).control = (s.timer x).control &&& 0xFE#8 ∧ hasBit t.feed x.count0 = false ∧
      hasBit t.pending x.count0 = false ∧ hasBit t.pending x.count1 = false ∧
      hasBit t.pending x.count2 = false ∧ hasBit t.pending x.count3 = false) ∧
    ((hasBit s.pending x.oneShot || hasBit s.feed x.oneShot) = false → (t.timer x).control = (s.timer x).control)

/-- For every Active state whose feed holds only its four bits: after a TICK CountB2 is set exactly when CountB1 was set, or timer A underflows in it with CRB START = 1 and CRB[6:5] = 10, or 11 with gate = 1; unless timer B's own one-shot underflow in the same TICK clears the chain. The cascade condition and the stage it sets are the spec's decisions D13 and D14.
(42_timer_unit.md section 5, 92_eei_decisions.md D13, 92_eei_decisions.md D14.) -/
def Obligations.CascadePulseReachesTimerB : Prop :=
  ∀ s : State, s.idle = false → s.feed &&& ~~~feedBits = 0#32 → ∃ t, exec .tick s = .next t ∧
    hasBit t.pending .countB2 =
      ((hasBit s.pending .countB1 ||
          (underflowDue .a s && s.timerB.control.getLsbD 0 && s.timerB.control.getLsbD 6 &&
            (!s.timerB.control.getLsbD 5 || s.gate))) &&
        !(underflowDue .b s && (hasBit s.pending .oneShotB0 || hasBit s.feed .oneShotB0)))

/-- From every state of the invariant in which timer A underflows in the coming TICK, timer B is started in a cascade mode (gate high in the gated one), its chains are empty and its counter is not 0: after the TICK of the underflow and the next TICK timer B's logical counter is unchanged, after the third it is one less, and after every later TICK it is still only one less as long as no further underflow of timer A lies two or more TICKs back (a further underflow gives its own decrement two TICKs later). The condition and the pulse's stages are the spec's decisions D13 and D14.
(42_timer_unit.md section 5, 92_eei_decisions.md D13, 92_eei_decisions.md D14.) -/
def Obligations.OneUnderflowOfAGivesOneDecrementOfB : Prop :=
  ∀ s : State, s.Inv → underflowDue .a s = true → cascadeEnabled s = true → chainEmpty .b s = true → s.timerB.counter ≠ 0#16 →
    logicalCounter .b (ticks 1 s) = s.timerB.counter ∧ logicalCounter .b (ticks 2 s) = s.timerB.counter ∧
    logicalCounter .b (ticks 3 s) = s.timerB.counter - 1#16 ∧
    ∀ n, 3 ≤ n → (∀ m, 1 ≤ m → m + 3 ≤ n → underflowDue .a (ticks m s) = false) →
      logicalCounter .b (ticks n s) = s.timerB.counter - 1#16

/-- For every timer, from every state of the invariant in which it is stopped with logical counter and latch L and its count and load chains empty: after a control write in clock 0 that starts it on system clocks in continuous mode, for every n up to L+1, after the TICK of clock n the logical counter is L+1-n (L for n = 0), the toggle bit (flipped by each underflow) has not changed while n ≤ L and has flipped at n = L+1, and at n = L+1 the cause bit is set. It holds for every setting of the Idle Optimizer. The stages of the chains are the spec's decisions D1, D4 and D7.
(42_timer_unit.md section 6, 92_eei_decisions.md D1, 92_eei_decisions.md D4, 92_eei_decisions.md D7.) -/
def Obligations.FirstUnderflowComesAtLatchPlusOne : Prop :=
  ∀ (x : TimerId) (v : Byte) (s : State) (L : Nat), s.Inv → running x s = false → chainEmpty x s = true →
    (s.timer x).latch.toNat = L → (logicalCounter x s).toNat = L → countsSystemClock x v = true → v.getLsbD 3 = false →
    ∃ t, exec (controlWrite x v) s = .next t ∧ ∀ n, n ≤ L + 1 →
      (logicalCounter x (ticks (n + 1) t)).toNat = (if n = 0 then L else L + 1 - n) ∧
      ((ticks (n + 1) t).timer x).toggle = (if n = L + 1 then !(t.timer x).toggle else (t.timer x).toggle) ∧
      (n = L + 1 → (ticks (n + 1) t).icr.getLsbD x.cause.code = true)

/-- For every timer, from every state of the invariant right after one of its underflows in continuous system-clock mode, with latch L: for every n from 1 to L+1 the logical counter n TICKs later is L+1-n, the toggle bit is unchanged until n = L and flipped at n = L+1, and L+1 TICKs later the timer is again right after an underflow. The priority of the load, which makes the period L+1, is the spec's decision D6.
(42_timer_unit.md section 6, 92_eei_decisions.md D6.) -/
def Obligations.PeriodIsLatchPlusOne : Prop :=
  ∀ (x : TimerId) (s : State) (L : Nat), s.Inv → justUnderflowed x s = true → (s.timer x).latch.toNat = L →
    (∀ n, 1 ≤ n → n ≤ L + 1 →
      (logicalCounter x (ticks n s)).toNat = L + 1 - n ∧
      ((ticks n s).timer x).toggle = (if n = L + 1 then !(s.timer x).toggle else (s.timer x).toggle)) ∧
    justUnderflowed x (ticks (L + 1) s) = true

/-- For every timer, from every state of the invariant in which it is stopped with logical counter and latch L and its chains empty: after a control write in clock 0 that starts it on system clocks in one-shot mode, the toggle bit does not flip before the TICK of clock L+1, flips in it, and START reads 0 from then on; after the TICK of clock L+2 and every later TICK the logical counter is L and the toggle bit does not flip again. The reload and the stop are the spec's decisions D8 and D9.
(42_timer_unit.md section 6, 92_eei_decisions.md D8, 92_eei_decisions.md D9.) -/
def Obligations.OneShotTimerUnderflowsOnceAndStands : Prop :=
  ∀ (x : TimerId) (v : Byte) (s : State) (L : Nat), s.Inv → running x s = false → chainEmpty x s = true →
    (s.timer x).latch.toNat = L → (logicalCounter x s).toNat = L → countsSystemClock x v = true → v.getLsbD 3 = true →
    ∃ t, exec (controlWrite x v) s = .next t ∧
      (∀ n, n ≤ L → ((ticks (n + 1) t).timer x).toggle = (t.timer x).toggle ∧ running x (ticks (n + 1) t) = true) ∧
      (∀ m, L + 1 ≤ m → ((ticks (m + 1) t).timer x).toggle = !(t.timer x).toggle ∧ running x (ticks (m + 1) t) = false) ∧
      (ticks (L + 2) t).icr.getLsbD x.cause.code = true ∧
      (∀ m, L + 2 ≤ m → (logicalCounter x (ticks (m + 1) t)).toNat = L)

/-- For every timer, from every state of the invariant in which its count chain is full, no load is in its chain and its logical counter is at least 2: after a control write with START = 0 and no force load, the logical counter is one less after the first TICK and two less after the second and every later TICK. The stop latency is the spec's decision D5.
(42_timer_unit.md section 5, 40_delay_pipeline.md section 3, 92_eei_decisions.md D5.) -/
def Obligations.StoppedTimerDrainsTwoDecrements : Prop :=
  ∀ (x : TimerId) (v : Byte) (s : State), s.Inv → chainFull x s = true →
    hasBit s.pending x.load0 = false → hasBit s.pending x.load1 = false →
    2 ≤ (logicalCounter x s).toNat → v.getLsbD 0 = false → v.getLsbD 4 = false →
    ∃ t, exec (controlWrite x v) s = .next t ∧
      logicalCounter x (ticks 1 t) = logicalCounter x s - 1#16 ∧
      ∀ n, 2 ≤ n → logicalCounter x (ticks n t) = logicalCounter x s - 2#16

/-- For every timer, byte v and state, after WR_CRx: CountX0 and CountX1 are set in pending exactly when v selects START on system clocks (bit 5 = 0 for A, bits 6:5 = 00 for B); OneShotX0 is added by bit 3, LoadX0 by bit 4; the PB-low bits of the timer are kept with PBON in pulse mode and removed otherwise; every other bit is unchanged. In feed CountX0 follows the count condition, OneShotX0 follows bit 3, every other bit is unchanged. The stages armed, the strobe, the bit positions and the one-shot timing are the spec's decisions D4, D9, D10, D11 and D16.
(43_control_interrupt.md section 1, 43_control_interrupt.md section 2, 92_eei_decisions.md D4, 92_eei_decisions.md D9, 92_eei_decisions.md D10, 92_eei_decisions.md D11, 92_eei_decisions.md D16.) -/
def Obligations.ControlWriteSetsThePipelineBits : Prop :=
  ∀ (x : TimerId) (v : Byte) (s : State), ∃ t, exec (controlWrite x v) s = .next t ∧
    (∀ b : PipeBit, hasBit t.pending b =
      (if b = x.count0 ∨ b = x.count1 then
        (match x with
          | .a => v.getLsbD 0 && !v.getLsbD 5
          | .b => v.getLsbD 0 && !v.getLsbD 6 && !v.getLsbD 5)
      else if b = x.oneShot then hasBit s.pending b || v.getLsbD 3
      else if b = x.load0 then hasBit s.pending b || v.getLsbD 4
      else if b = x.pbLow0 ∨ b = x.pbLow1 then hasBit s.pending b && v.getLsbD 1 && !v.getLsbD 2
      else hasBit s.pending b)) ∧
    (∀ b : PipeBit, hasBit t.feed b =
      (if b = x.count0 then
        (match x with
          | .a => v.getLsbD 0 && !v.getLsbD 5
          | .b => v.getLsbD 0 && !v.getLsbD 6 && !v.getLsbD 5)
      else if b = x.oneShot then v.getLsbD 3
      else hasBit s.feed b))

/-- For every timer, byte v and state, WR_CRx stores v without bit 4; a start edge (START 0 to 1) with toggle mode sets the toggle bit and nothing else changes it; the output bit becomes pending[PBxLow1] with PBON in pulse mode, the new toggle bit with PBON in toggle mode, and is kept without PBON; the latch is unchanged and the counter is the absorbed one. The other timer is only absorbed, the chip is Active, and nothing but the timers, pending, feed, idle and idleLeft changes. The toggle and output rules are the spec's decisions D15, D16 and D37.
(43_control_interrupt.md section 1, 43_control_interrupt.md section 2, 92_eei_decisions.md D10, 92_eei_decisions.md D15, 92_eei_decisions.md D16, 92_eei_decisions.md D37.) -/
def Obligations.ControlWriteChangesItsTimerOnly : Prop :=
  ∀ (x : TimerId) (v : Byte) (s : State), ∃ t, exec (controlWrite x v) s = .next t ∧
    (∀ k, k < 8 → (t.timer x).control.getLsbD k = (v.getLsbD k && decide (k ≠ 4))) ∧
    (t.timer x).toggle = ((s.timer x).toggle || (v.getLsbD 0 && !(s.timer x).control.getLsbD 0 && v.getLsbD 2)) ∧
    (t.timer x).output =
      (if v.getLsbD 1 then (if v.getLsbD 2 then (t.timer x).toggle else hasBit s.pending x.pbLow1) else (s.timer x).output) ∧
    (t.timer x).latch = (s.timer x).latch ∧ (t.timer x).counter = logicalCounter x s ∧
    (∀ y, y ≠ x → t.timer y = { s.timer y with counter := logicalCounter y s }) ∧
    t = { s with
      timerA := t.timerA, timerB := t.timerB, pending := t.pending, feed := t.feed
      idle := false, idleLeft := if s.idle then 0 else s.idleLeft }

/-- For every state, RD_ICR returns the byte 128 (if the line is asserted) plus ICR, sets ICR and irq to 0, clears Int0 and Int1 and no other bit of pending, and beyond the absorb changes nothing else; a second read with no TICK between returns 0. Bits 5 and 6 reading 0 is the spec's decision D20.
(43_control_interrupt.md section 4, 92_eei_decisions.md D20.) -/
def Obligations.ReadIcrSnapshotsAndClears : Prop :=
  ∀ s : State, ∃ t u r, exec .rdIcr s = .next t ∧
    t = { absorb s with icr := 0, irq := false, pending := t.pending, returned := r :: s.returned } ∧
    r.toNat = (if s.irq then 128 else 0) + s.icr.toNat ∧
    (∀ b : PipeBit, hasBit t.pending b = (hasBit s.pending b && decide (b ≠ .int0) && decide (b ≠ .int1))) ∧
    exec .rdIcr t = .next u ∧ u.returned = 0x00#8 :: r :: s.returned

/-- For every state and byte v: with bit 7 = 1 each of the five mask bits becomes itself or the bit of v, with bit 7 = 0 itself and not the bit of v; Int0 (bit 16 of pending) is set if a cause is then both pending and enabled and the line is not asserted; beyond the absorb nothing else changes, so neither the line nor an assertion in flight is withdrawn. That nothing is withdrawn is the spec's decision D22.
(43_control_interrupt.md section 4, 92_eei_decisions.md D22.) -/
def Obligations.WriteImrSetsOrClearsMaskBits : Prop :=
  ∀ (v : Byte) (s : State), ∃ t, exec (.wrImr v) s = .next t ∧
    (∀ k, k < 5 → t.imr.getLsbD k =
      (if v.getLsbD 7 then s.imr.getLsbD k || v.getLsbD k else s.imr.getLsbD k && !v.getLsbD k)) ∧
    t = { absorb s with
      imr := t.imr
      pending := if s.icr &&& t.imr ≠ 0#5 ∧ s.irq = false then s.pending ||| 0x010000#32 else s.pending }

/-- For every byte c and state: with CAUSE_HOOK true, CAUSE ORs the bits 4:2 of c into ICR, sets Int0 (bit 16 of pending) if that set is not empty, some cause is pending and enabled and the line is not asserted, and beyond the absorb changes nothing else; with CAUSE_HOOK false it is refused. The hook is the spec's decision D23.
(43_control_interrupt.md section 6, 30_encoding.md section 6, 92_eei_decisions.md D23.) -/
def Obligations.CauseRaisesExternalCauses : Prop :=
  ∀ (c : Byte) (s : State),
    (s.config.causeHook = true → ∃ t, exec (.cause c) s = .next t ∧
      (∀ k, k < 5 → t.icr.getLsbD k = (s.icr.getLsbD k || (decide (2 ≤ k) && c.getLsbD k))) ∧
      t = { absorb s with
        icr := t.icr
        pending := if c &&& 0x1C#8 ≠ 0#8 ∧ t.icr &&& s.imr ≠ 0#5 ∧ s.irq = false then s.pending ||| 0x010000#32
          else s.pending }) ∧
    (s.config.causeHook = false → exec (.cause c) s = .refused .causeHookAbsent)

/-- From every state with the line high and no assertion due in the coming TICK: after a WR_IMR, or a CAUSE with the hook and a nonempty set, that leaves a cause both pending and enabled, the line is still high after the first TICK and asserted after the second. The two-stage chain is the spec's decision D21.
(43_control_interrupt.md section 4, 43_control_interrupt.md section 6, 60_exceptions.md section 4, 92_eei_decisions.md D21.) -/
def Obligations.MaskWriteOrCauseAssertsOneClockLater : Prop :=
  ∀ (i : Instr) (s : State),
    ((∃ v, i = .wrImr v) ∨ (∃ c, i = .cause c ∧ c &&& 0x1C#8 ≠ 0#8 ∧ s.config.causeHook = true)) →
    s.irq = false → hasBit s.pending .int1 = false →
    ∃ t, exec i s = .next t ∧
      (t.icr &&& t.imr ≠ 0#5 → t.irq = false ∧ (ticks 1 t).irq = false ∧ (ticks 2 t).irq = true)

/-- For every timer and every state with the line high and no assertion due: if the timer underflows in the coming TICK and its mask bit is set, then after that TICK the cause is recorded and the line is still high, and after the next TICK the line is asserted. That an underflow takes the pipeline path is the spec's decision D21.
(43_control_interrupt.md section 3, 60_exceptions.md section 2, 92_eei_decisions.md D21.) -/
def Obligations.UnderflowAssertsOneClockLater : Prop :=
  ∀ (x : TimerId) (s : State), underflowDue x s = true → s.imr.getLsbD x.cause.code = true → s.irq = false →
    hasBit s.pending .int1 = false →
    ∃ t, exec .tick s = .next t ∧ t.icr.getLsbD x.cause.code = true ∧ t.irq = false ∧ (ticks 1 t).irq = true

/-- From every state with an assertion in flight and the line high, RD_ICR returns a byte with bit 7 = 0 and leaves neither Int0 nor Int1 in pending, the next TICK does not assert the line, and, feed holding only its four bits, if no timer underflows in that TICK the TICK after it does not assert the line either; and from every state a timer whose underflow falls in the TICK of the same clock as the read has its cause recorded after that TICK.
(43_control_interrupt.md section 4, 70_reset_and_hazards.md section 3.) -/
def Obligations.AcknowledgeCancelsAnAssertionInFlight : Prop :=
  (∀ s : State, s.irq = false → hasBit s.pending .int0 = true ∨ hasBit s.pending .int1 = true →
    ∃ t r, exec .rdIcr s = .next t ∧ t.returned = r :: s.returned ∧ r.getLsbD 7 = false ∧
      hasBit t.pending .int0 = false ∧ hasBit t.pending .int1 = false ∧ (ticks 1 t).irq = false ∧
      (s.feed &&& ~~~feedBits = 0#32 → (∀ x, underflowDue x t = false) → (ticks 2 t).irq = false)) ∧
  (∀ (x : TimerId) (s : State), underflowDue x s = true →
    ∃ t, exec .rdIcr s = .next t ∧ (ticks 1 t).icr.getLsbD x.cause.code = true)

/-- In every Active state with Int1 in pending, TICK answers a state with irq = 1; and for every operation, if irq goes from 0 to 1 then the operation is TICK, the chip was Active and Int1 was in pending; a TICK never takes irq back.
(R144.) -/
def Obligations.LineIsAssertedByInt1Only : Prop :=
  (∀ s : State, s.idle = false → hasBit s.pending .int1 = true → ∃ t, exec .tick s = .next t ∧ t.irq = true) ∧
  (∀ (i : Instr) (s t : State), exec i s = .next t → s.irq = false → t.irq = true →
    i = .tick ∧ s.idle = false ∧ hasBit s.pending .int1 = true) ∧
  (∀ s t : State, exec .tick s = .next t → s.irq = true → t.irq = true)

/-- For every operation and state, if irq goes from 1 to 0 then the operation is RD_ICR or RESET, and both do release it.
(10_state.md section 5, 43_control_interrupt.md section 4.) -/
def Obligations.LineIsReleasedByAcknowledgeOrResetOnly : Prop :=
  (∀ (i : Instr) (s t : State), exec i s = .next t → s.irq = true → t.irq = false → i = .rdIcr ∨ i = .reset) ∧
  (∀ (i : Instr) (s : State), i = .rdIcr ∨ i = .reset → ∃ t, exec i s = .next t ∧ t.irq = false)

/-- For every operation and state: unless the operation is RD_ICR or RESET no cause bit is lost; RD_ICR clears all five at once, and so does RESET; and the causes an operation leaves do not depend on the mask.
(R188.) -/
def Obligations.CausesAreSticky : Prop :=
  (∀ (i : Instr) (s t : State), exec i s = .next t → i ≠ .rdIcr → i ≠ .reset →
    ∀ k, s.icr.getLsbD k = true → t.icr.getLsbD k = true) ∧
  (∀ (i : Instr) (s : State), i = .rdIcr ∨ i = .reset → ∃ t, exec i s = .next t ∧ t.icr = 0#5) ∧
  (∀ (i : Instr) (s t u : State) (m : Causes), exec i s = .next t → exec i { s with imr := m } = .next u → u.icr = t.icr)

/-- For every operation and state, if a cause bit goes from 0 to 1: bit 0 only by a TICK in which timer A underflows, bit 1 only by a TICK in which timer B underflows, bits 2 to 4 only by a CAUSE that names the bit, with the hook present.
(10_state.md section 10, 60_exceptions.md section 1.) -/
def Obligations.CausesHaveTheirOwnSources : Prop :=
  ∀ (i : Instr) (s t : State) (k : Nat), exec i s = .next t → s.icr.getLsbD k = false → t.icr.getLsbD k = true →
    (k = 0 ∧ i = .tick ∧ underflowDue .a s = true) ∨ (k = 1 ∧ i = .tick ∧ underflowDue .b s = true) ∨
    (2 ≤ k ∧ k ≤ 4 ∧ ∃ c, i = .cause c ∧ c.getLsbD k = true ∧ s.config.causeHook = true)

/-- If in a state (ICR & IMR) ≠ 0 implies irq = 1 or Int0 or Int1 in pending, then so it does in every next state a step answers.
(43_control_interrupt.md section 4, 60_exceptions.md section 2.) -/
def Obligations.EnabledCauseReachesTheLine : Prop :=
  ∀ s t : State,
    (enabledCauses s ≠ 0#5 → s.irq = true ∨ hasBit s.pending .int0 = true ∨ hasBit s.pending .int1 = true) →
    step s = .next t →
    enabledCauses t ≠ 0#5 → t.irq = true ∨ hasBit t.pending .int0 = true ∨ hasBit t.pending .int1 = true

/-- For every register other than 1 and 13, the read leaves the state unchanged but for the byte it returns, and reading again returns the same byte; RD_ICR clears ICR and irq and cancels a scheduled interrupt, RD_PRB drives the handshake line low, and each of the two does change some state; their absorb changes no logical counter and no output.
(R52.) -/
def Obligations.OnlyTwoReadsHaveSideEffects : Prop :=
  (∀ (rs : RegSelect) (s : State), rs ≠ 1#4 → rs ≠ 13#4 →
    ∃ r, exec (readOf rs) s = .next { s with returned := r :: s.returned } ∧
      exec (readOf rs) { s with returned := r :: s.returned } = .next { s with returned := r :: r :: s.returned }) ∧
  (∀ s : State, ∃ t, exec (readOf 13#4) s = .next t ∧ t.icr = 0#5 ∧ t.irq = false ∧
    hasBit t.pending .int0 = false ∧ hasBit t.pending .int1 = false) ∧
  (∀ s : State, ∃ t, exec (readOf 1#4) s = .next t ∧ t.pcLine = false ∧ hasBit t.pending .pcHigh0 = true) ∧
  (∃ s t : State, exec (readOf 13#4) s = .next t ∧ t.irq ≠ s.irq) ∧
  (∃ s t : State, exec (readOf 1#4) s = .next t ∧ t.pcLine ≠ s.pcLine) ∧
  (∀ (x : TimerId) (s : State), logicalCounter x (absorb s) = logicalCounter x s ∧ outputsOf (absorb s) = outputsOf s)

/-- For every state: WR_PRB pulses the handshake line every time; WR_CRx with bit 4 schedules a load every time; WR_TxHI schedules a load every time the timer is stopped; WR_IMR schedules an assertion every time a cause is pending and enabled and the line is high, even when it changes no mask bit; WR_PRA, WR_DDRA, WR_DDRB, WR_TALO, WR_TBLO and the TOD writes, made twice, give what they give once; WR_SDR has no effect.
(R53.) -/
def Obligations.RepeatedWritesActEveryTime : Prop :=
  (∀ (v : Byte) (s : State), ∃ t, exec (.wrPrb v) s = .next t ∧ t.pcLine = false ∧ hasBit t.pending .pcHigh0 = true) ∧
  (∀ (x : TimerId) (v : Byte) (s : State), v.getLsbD 4 = true →
    ∃ t, exec (controlWrite x v) s = .next t ∧ hasBit t.pending x.load0 = true) ∧
  (∀ (x : TimerId) (v : Byte) (s : State), running x s = false →
    ∃ t, exec (latchHighWrite x v) s = .next t ∧ hasBit t.pending x.load0 = true) ∧
  (∀ (v : Byte) (s : State), ∃ t, exec (.wrImr v) s = .next t ∧
    (t.icr &&& t.imr ≠ 0#5 → s.irq = false → hasBit t.pending .int0 = true)) ∧
  (∀ (v : Byte) (i : Instr) (s : State),
    i ∈ [.wrPra v, .wrDdra v, .wrDdrb v, .wrTalo v, .wrTblo v, .wrTod10 v, .wrTodsec v, .wrTodmin v, .wrTodhr v] →
    ∃ t, exec i s = .next t ∧ exec i t = .next t) ∧
  (∀ (v : Byte) (s : State), exec (.wrSdr v) s = .next s)

/-- For every operation and state: PRA, PRB, DDRA, DDRB and the four TOD bytes change only by their own write or RESET; IMR only by WR_IMR or RESET; a latch only by its two writes or RESET; PA_ext, PB_ext and gate only by INPA, INPB and GATE; the parameters never; and no operation touches the queue of operations still to come.
(10_state.md section 3, 10_state.md section 4, 10_state.md section 9, 10_state.md section 14.) -/
def Obligations.RegistersChangeByTheirOwnWritesOnly : Prop :=
  ∀ (i : Instr) (s t : State), exec i s = .next t →
    (t.pra ≠ s.pra → i = .reset ∨ ∃ v, i = .wrPra v) ∧ (t.prb ≠ s.prb → i = .reset ∨ ∃ v, i = .wrPrb v) ∧
    (t.ddra ≠ s.ddra → i = .reset ∨ ∃ v, i = .wrDdra v) ∧ (t.ddrb ≠ s.ddrb → i = .reset ∨ ∃ v, i = .wrDdrb v) ∧
    (t.tod10 ≠ s.tod10 → i = .reset ∨ ∃ v, i = .wrTod10 v) ∧ (t.todSec ≠ s.todSec → i = .reset ∨ ∃ v, i = .wrTodsec v) ∧
    (t.todMin ≠ s.todMin → i = .reset ∨ ∃ v, i = .wrTodmin v) ∧ (t.todHr ≠ s.todHr → i = .reset ∨ ∃ v, i = .wrTodhr v) ∧
    (t.imr ≠ s.imr → i = .reset ∨ ∃ v, i = .wrImr v) ∧
    (∀ x, (t.timer x).latch ≠ (s.timer x).latch → i = .reset ∨ ∃ v, i = latchLowWrite x v ∨ i = latchHighWrite x v) ∧
    (t.paExt ≠ s.paExt → ∃ v, i = .inpa v) ∧ (t.pbExt ≠ s.pbExt → ∃ v, i = .inpb v) ∧
    (t.gate ≠ s.gate → ∃ g, i = .gate g) ∧ t.config = s.config ∧ t.stimulus = s.stimulus

/-- For every operation and state: if pending or feed changes, the operation is TICK, RESET, WR_TAHI, WR_TBHI, WR_CRA, WR_CRB, WR_IMR, CAUSE, RD_ICR, RD_PRB or WR_PRB, and if it is not TICK the chip is Active after it; feed changes only by TICK, RESET, WR_CRA and WR_CRB.
(40_delay_pipeline.md section 2, 10_state.md section 7.) -/
def Obligations.PipelineChangesByItsOwnOperationsOnly : Prop :=
  ∀ (i : Instr) (s t : State), exec i s = .next t →
    (t.pending ≠ s.pending ∨ t.feed ≠ s.feed →
      i = .tick ∨ (t.idle = false ∧
        (i = .reset ∨ i = .rdIcr ∨ i = .rdPrb ∨ (∃ v, i = .wrPrb v) ∨ (∃ x v, i = latchHighWrite x v) ∨
          (∃ x v, i = controlWrite x v) ∨ (∃ v, i = .wrImr v) ∨ (∃ c, i = .cause c)))) ∧
    (t.feed ≠ s.feed → i = .tick ∨ i = .reset ∨ ∃ x v, i = controlWrite x v)

/-- For every state, TICK completes, and its next state differs from the state before it at most in the timers, ICR, irq, pcLine, pending, feed, idle and idleLeft; of a timer only the counter, the toggle and output bits and the START bit can change. What pending and feed hold after it is stated bit by bit by ActiveTickMovesEveryBitOneStage for an Active TICK and by IdleTickOnlyCountsDown for an Idle one.
(10_state.md section 14, 44_clock_transition_idle.md section 1.) -/
def Obligations.TickChangesItsOwnVariablesOnly : Prop :=
  ∀ s : State, ∃ t, exec .tick s = .next t ∧
    t = { s with
      timerA := t.timerA, timerB := t.timerB, icr := t.icr, irq := t.irq, pcLine := t.pcLine
      pending := t.pending, feed := t.feed, idle := t.idle, idleLeft := t.idleLeft } ∧
    ∀ x, (t.timer x).latch = (s.timer x).latch ∧
      ((t.timer x).control = (s.timer x).control ∨ (t.timer x).control = (s.timer x).control &&& 0xFE#8)

/-- For every timer, operation and state: a timer that is Stopped leaves that state only by a write of its control register with bit 0 = 1; a timer that is not Stopped becomes Stopped only by RESET, by a write of its control register with bit 0 = 0, or by a TICK in which it underflows with the one-shot bit selected; and it moves between Running and Running-OneShot only by a write of its control register. The one-shot selection tested by an underflow is the spec's decision D9.
(10_state.md section 13, 42_timer_unit.md section 4, 92_eei_decisions.md D9.) -/
def Obligations.TimerStartsAndStopsAsTheStateMachineSays : Prop :=
  ∀ (x : TimerId) (i : Instr) (s t : State), exec i s = .next t →
    (timerMode x s = .stopped → timerMode x t ≠ .stopped → ∃ v, i = controlWrite x v ∧ v.getLsbD 0 = true) ∧
    (timerMode x s ≠ .stopped → timerMode x t = .stopped →
      i = .reset ∨ (∃ v, i = controlWrite x v ∧ v.getLsbD 0 = false) ∨
      (i = .tick ∧ underflowDue x s = true ∧ (hasBit s.pending x.oneShot || hasBit s.feed x.oneShot) = true)) ∧
    (timerMode x s ≠ .stopped → timerMode x t ≠ .stopped → timerMode x s ≠ timerMode x t → ∃ v, i = controlWrite x v)

/-- In every state of the invariant: with PBON = 1 and toggle mode, bit 6 (timer A) or 7 (timer B) of PB_out is the timer's toggle bit; with PBON = 1 and pulse mode it is 1 exactly when the end of a pulse is due in the coming TICK; whatever PRB and DDRB hold. The override and the pulse are the spec's decisions D16 and D17.
(41_port_unit.md section 1, 40_delay_pipeline.md section 3, 92_eei_decisions.md D16, 92_eei_decisions.md D17.) -/
def Obligations.TimerOwnedPinShowsItsMode : Prop :=
  ∀ s : State, s.Inv →
    (s.timerA.control.getLsbD 1 = true →
      (pbOut s).getLsbD 6 = (if s.timerA.control.getLsbD 2 then s.timerA.toggle else hasBit s.pending .pb6Low1)) ∧
    (s.timerB.control.getLsbD 1 = true →
      (pbOut s).getLsbD 7 = (if s.timerB.control.getLsbD 2 then s.timerB.toggle else hasBit s.pending .pb7Low1))

/-- For every Idle state, TICK answers the same state except that, if a timer runs, idleLeft is one less and the chip becomes Active when it reaches 0; if no timer runs nothing changes. The representation is the spec's decision D28; outside the reachable states, with a timer running and idleLeft 0 already, that idleLeft stays 0 and the chip becomes Active is the model's choice (assumption 10, DESIGN CHOICE).
(44_clock_transition_idle.md section 2, 92_eei_decisions.md D28.) -/
def Obligations.IdleTickOnlyCountsDown : Prop :=
  ∀ s : State, s.idle = true → exec .tick s = .next
    (if hasBit s.pending .countA3 || hasBit s.pending .countB3 then
      { s with idleLeft := s.idleLeft - 1, idle := decide (s.idleLeft - 1 ≠ 0) }
    else s)

/-- For every Active state, if TICK leaves the chip Idle then IDLE_ENABLE is true and the pipeline is steady, and either no timer runs and idleLeft is 0, or idleLeft is at least IDLE_MIN and idleLeft + 1 is the least logical counter of the running timers. The optimizer is the spec's decision D28.
(44_clock_transition_idle.md section 2, 92_eei_decisions.md D28.) -/
def Obligations.IdleIsEnteredOnlyFromASteadyPipeline : Prop :=
  ∀ s : State, s.idle = false → ∃ t, exec .tick s = .next t ∧ (t.idle = true →
    t.config.idleEnable = true ∧ steady t.pending t.feed = true ∧
    ((hasBit t.pending .countA3 = false ∧ hasBit t.pending .countB3 = false ∧ t.idleLeft = 0) ∨
      (t.config.idleMin ≤ t.idleLeft ∧
        (∃ x : TimerId, hasBit t.pending x.count3 = true ∧ (logicalCounter x t).toNat = t.idleLeft + 1) ∧
        ∀ x : TimerId, hasBit t.pending x.count3 = true → t.idleLeft + 1 ≤ (logicalCounter x t).toNat)))

/-- For every operation and Idle state, if the chip is Active after the operation, then the operation is a TICK with a timer running and idleLeft at most 1, or RESET, or one of the accesses that absorb: RD_PRB, WR_PRB, WR_TAHI or WR_TBHI of a stopped timer, WR_CRA, WR_CRB, RD_ICR, WR_IMR, CAUSE. The optimizer is the spec's decision D28; that a TICK with idleLeft 0 and a timer running wakes the chip, in no reachable state, is the model's choice (assumption 10, DESIGN CHOICE).
(44_clock_transition_idle.md section 2, 92_eei_decisions.md D28.) -/
def Obligations.IdleIsLeftOnlyByWakeUpAbsorbOrReset : Prop :=
  ∀ (i : Instr) (s t : State), exec i s = .next t → s.idle = true → t.idle = false →
    (i = .tick ∧ (hasBit s.pending .countA3 || hasBit s.pending .countB3) = true ∧ s.idleLeft ≤ 1) ∨
    i = .reset ∨ i = .rdPrb ∨ i = .rdIcr ∨ (∃ v, i = .wrPrb v) ∨
    (∃ x v, i = latchHighWrite x v ∧ running x s = false) ∨ (∃ x v, i = controlWrite x v) ∨ (∃ v, i = .wrImr v) ∨
    (∃ c, i = .cause c)

/-- For every operation and every state of the invariant: the reference machine (IDLE_ENABLE false, Active, stored counters equal to the logical ones), applied to the reference state, answers the reference state of what the machine with the optimizer answers, with the same bytes returned. The optimizer is the spec's decision D28.
(44_clock_transition_idle.md section 3, 92_eei_decisions.md D28.) -/
def Obligations.IdleOptimizerIsTransparent : Prop :=
  ∀ (i : Instr) (s : State), s.Inv → exec i s.reference = referenceOutcome (exec i s)

/-- For every two settings of IDLE_ENABLE and IDLE_MIN (at least 1) with the same CAUSE_HOOK, and every sequence of operations from the reset state: the two runs end in next states with the same abstraction (logical counters, pending, feed, causes, line, ports, everything but idle, idleLeft and the setting itself) and the same bytes returned, and the same outputs, or both are refused. The optimizer is the spec's decision D28.
(44_clock_transition_idle.md section 3, 92_eei_decisions.md D28.) -/
def Obligations.IdleParametersAreUnobservable : Prop :=
  ∀ (c d : Config) (is : List Instr), c.wf → d.wf → c.causeHook = d.causeHook →
    (∃ s t, execAll is { State.reset with config := c } = .next s ∧ execAll is { State.reset with config := d } = .next t ∧
      { t.abs with config := c } = s.abs ∧ t.returned = s.returned ∧ outputsOf t = outputsOf s) ∨
    (∃ r, execAll is { State.reset with config := c } = .refused r ∧ execAll is { State.reset with config := d } = .refused r)

/-- State.reset meets the invariant of every reachable state. Its parameters are the model's choice (assumption 3).
(10_state.md section 12, 10_state.md section 11.) -/
def Obligations.ResetStateMeetsTheInvariant : Prop :=
  State.reset.Inv

/-- For every state that meets the invariant (pipeline words within their used bits; LOAD not stored; feed following the control registers; no decrement of 0; pulses and toggles on the pins; enabled causes on their way to the line; a low handshake line on its way up; Idle only with a steady pipeline and counters that do not wrap), if a step answers a next state, that state meets it too.
(10_state.md section 12, 40_delay_pipeline.md section 4, 43_control_interrupt.md section 4, 44_clock_transition_idle.md section 4.) -/
def Obligations.EveryStepKeepsTheInvariant : Prop :=
  ∀ s t : State, s.Inv → step s = .next t → t.Inv

/-- For every Active state whose feed holds only its four bits, after TICK pending holds no bit above 21, and for each timer, where stop means that it underflows in this TICK with its one-shot bit in pending or feed: CountX0 in feed and in pending is CountX0 of feed unless stop; CountX1, CountX2 and CountX3 are the stage before unless stop, CountB2 also being set by a cascading underflow of timer A; LoadX0 is clear and LoadX1 is LoadX0 or an underflow; the first PB-low stage is clear and the second is the first or an underflow in pulse mode; OneShotX0 is that of feed in both words; Int0 is clear and Int1 is Int0, or an underflow that leaves a cause pending and enabled with the line high; PCHigh0 is clear and PCHigh1 is PCHigh0. The shift, the layout, the chains and what an underflow schedules are the spec's decisions D2, D3, D4, D8, D9, D13, D14, D16 and D21; the positions of PBON and OUTMODE are D11 (assumption 4, PRESUMED).
(40_delay_pipeline.md section 1, 40_delay_pipeline.md section 2, 42_timer_unit.md section 4, 92_eei_decisions.md D2, 92_eei_decisions.md D3, 92_eei_decisions.md D4, 92_eei_decisions.md D8, 92_eei_decisions.md D9, 92_eei_decisions.md D13, 92_eei_decisions.md D14, 92_eei_decisions.md D16, 92_eei_decisions.md D21.) -/
def Obligations.ActiveTickMovesEveryBitOneStage : Prop :=
  ∀ s : State, s.idle = false → s.feed &&& ~~~feedBits = 0#32 → ∃ t, exec .tick s = .next t ∧
    t.pending &&& ~~~usedBits = 0#32 ∧ t.feed &&& ~~~feedBits = 0#32 ∧
    (∀ x : TimerId,
      hasBit t.feed x.count0 = (hasBit s.feed x.count0 && !(underflowDue x s && oneShotSelected x s)) ∧
      hasBit t.pending x.count0 = (hasBit s.feed x.count0 && !(underflowDue x s && oneShotSelected x s)) ∧
      hasBit t.pending x.count1 = (hasBit s.pending x.count0 && !(underflowDue x s && oneShotSelected x s)) ∧
      hasBit t.pending x.count2 =
        ((hasBit s.pending x.count1 || (decide (x = .b) && underflowDue .a s && cascadeEnabled s)) &&
          !(underflowDue x s && oneShotSelected x s)) ∧
      hasBit t.pending x.count3 = (hasBit s.pending x.count2 && !(underflowDue x s && oneShotSelected x s)) ∧
      hasBit t.pending x.load0 = false ∧
      hasBit t.pending x.load1 = (hasBit s.pending x.load0 || underflowDue x s) ∧
      hasBit t.pending x.pbLow0 = false ∧
      hasBit t.pending x.pbLow1 = (hasBit s.pending x.pbLow0 ||
        (underflowDue x s && (s.timer x).control.getLsbD 1 && !(s.timer x).control.getLsbD 2)) ∧
      hasBit t.feed x.oneShot = hasBit s.feed x.oneShot ∧
      hasBit t.pending x.oneShot = hasBit s.feed x.oneShot) ∧
    hasBit t.pending .int0 = false ∧
    hasBit t.pending .int1 = (hasBit s.pending .int0 ||
      ((underflowDue .a s || underflowDue .b s) && decide (t.icr &&& t.imr ≠ 0#5) && !t.irq)) ∧
    hasBit t.pending .pcHigh0 = false ∧
    hasBit t.pending .pcHigh1 = hasBit s.pending .pcHigh0
end

