-- ==== Sys2Proof/Laws/Operands.lean ====
section
/-! SUPPORT. The small lemmas of the operand forms and of the flag values. -/

namespace Sys2Proof.Machine

@[simp] theorem lowByte_withLowByte (v : Word) (b : Byte) : lowByte (withLowByte v b) = b := by
  unfold lowByte withLowByte; exact BitVec.extractLsb'_append_eq_right

@[simp] theorem highByte_withLowByte (v : Word) (b : Byte) : highByte (withLowByte v b) = highByte v := by
  unfold highByte withLowByte; exact BitVec.extractLsb'_append_eq_left

@[simp] theorem lowByte_withHighByte (v : Word) (b : Byte) : lowByte (withHighByte v b) = lowByte v := by
  unfold lowByte withHighByte; exact BitVec.extractLsb'_append_eq_right

@[simp] theorem highByte_withHighByte (v : Word) (b : Byte) : highByte (withHighByte v b) = b := by
  unfold highByte withHighByte; exact BitVec.extractLsb'_append_eq_left

/-- A 16-bit value is its two halves, high byte first (R49). -/
theorem highByte_append_lowByte (v : Word) : highByte v ++ lowByte v = v := by
  unfold highByte lowByte
  refine BitVec.eq_of_getLsbD_eq fun i hi => ?_
  simp only [BitVec.getLsbD_append, BitVec.getLsbD_extractLsb']
  by_cases h : i < 8
  · simp [h]
  · simp [h, show i - 8 < 8 by omega, show 8 + (i - 8) = i by omega]

/-- Writing both halves, in either order, gives the whole value (R71). -/
theorem withHighByte_withLowByte (v w : Word) : withHighByte (withLowByte v (lowByte w)) (highByte w) = w := by
  unfold withHighByte; rw [lowByte_withLowByte]; exact highByte_append_lowByte w

/-- Only bit 4 is lost when a control byte is stored (R73). -/
theorem storedControl_getLsbD (v : Byte) (i : Nat) : (storedControl v).getLsbD i = (v.getLsbD i && decide (i ≠ 4)) := by
  by_cases h : i < 8
  · have : i = 0 ∨ i = 1 ∨ i = 2 ∨ i = 3 ∨ i = 4 ∨ i = 5 ∨ i = 6 ∨ i = 7 := by omega
    rcases this with h | h | h | h | h | h | h | h <;> subst h <;> simp [storedControl]
  · simp [storedControl, BitVec.getLsbD_of_ge _ _ (Nat.le_of_not_lt h)]

/-- Only bit 0 is cleared by the one-shot stop (R126). -/
theorem clearStart_getLsbD (v : Byte) (i : Nat) : (clearStart v).getLsbD i = (v.getLsbD i && decide (i ≠ 0)) := by
  by_cases h : i < 8
  · have : i = 0 ∨ i = 1 ∨ i = 2 ∨ i = 3 ∨ i = 4 ∨ i = 5 ∨ i = 6 ∨ i = 7 := by omega
    rcases this with h | h | h | h | h | h | h | h <;> subst h <;> simp [clearStart]
  · simp [clearStart, BitVec.getLsbD_of_ge _ _ (Nat.le_of_not_lt h)]

@[simp] theorem ctlStart_storedControl (v : Byte) : ctlStart (storedControl v) = ctlStart v := by
  simp only [ctlStart, storedControl_getLsbD]; simp
@[simp] theorem ctlPbOn_storedControl (v : Byte) : ctlPbOn (storedControl v) = ctlPbOn v := by
  simp only [ctlPbOn, storedControl_getLsbD]; simp
@[simp] theorem ctlToggleMode_storedControl (v : Byte) : ctlToggleMode (storedControl v) = ctlToggleMode v := by
  simp only [ctlToggleMode, storedControl_getLsbD]; simp
@[simp] theorem ctlOneShot_storedControl (v : Byte) : ctlOneShot (storedControl v) = ctlOneShot v := by
  simp only [ctlOneShot, storedControl_getLsbD]; simp
@[simp] theorem ctlLoad_storedControl (v : Byte) : ctlLoad (storedControl v) = false := by
  simp only [ctlLoad, storedControl_getLsbD]; simp
@[simp] theorem inputMode_storedControl (x : TimerId) (v : Byte) : inputMode x (storedControl v) = inputMode x v := by
  cases x <;> (simp only [inputMode, storedControl_getLsbD]; simp)
@[simp] theorem countsSystemClock_storedControl (x : TimerId) (v : Byte) :
    countsSystemClock x (storedControl v) = countsSystemClock x v := by simp [countsSystemClock]

@[simp] theorem ctlStart_clearStart (v : Byte) : ctlStart (clearStart v) = false := by simp only [ctlStart, clearStart_getLsbD]; simp
@[simp] theorem ctlPbOn_clearStart (v : Byte) : ctlPbOn (clearStart v) = ctlPbOn v := by simp only [ctlPbOn, clearStart_getLsbD]; simp
@[simp] theorem ctlToggleMode_clearStart (v : Byte) : ctlToggleMode (clearStart v) = ctlToggleMode v := by
  simp only [ctlToggleMode, clearStart_getLsbD]; simp
@[simp] theorem ctlOneShot_clearStart (v : Byte) : ctlOneShot (clearStart v) = ctlOneShot v := by
  simp only [ctlOneShot, clearStart_getLsbD]; simp
@[simp] theorem ctlLoad_clearStart (v : Byte) : ctlLoad (clearStart v) = ctlLoad v := by simp only [ctlLoad, clearStart_getLsbD]; simp
@[simp] theorem countsSystemClock_clearStart (x : TimerId) (v : Byte) : countsSystemClock x (clearStart v) = false := by
  simp [countsSystemClock]

/-- A raised cause adds its own bit (R188). -/
theorem withCause_getLsbD (icr : Causes) (c : Cause) (i : Nat) :
    (withCause icr c).getLsbD i = (icr.getLsbD i || decide (i = c.code)) := by
  have hc : c.code < 5 := by cases c <;> decide
  simp only [withCause, BitVec.getLsbD_or, BitVec.getLsbD_twoPow]
  congr 1
  simp [hc, eq_comm]

/-- No cause is lost when another is raised, so the register is not 0 afterwards. -/
theorem withCause_ne_zero (icr : Causes) (c : Cause) : withCause icr c ≠ 0#5 := by
  intro h
  have := withCause_getLsbD icr c c.code
  simp [h] at this

/-- The mask after WR_IMR, bit by bit (R72). -/
theorem maskAfterWrite_getLsbD (imr : Causes) (v : Byte) {i : Nat} (hi : i < 5) :
    (maskAfterWrite imr v).getLsbD i = if v.getLsbD 7 then imr.getLsbD i || v.getLsbD i else imr.getLsbD i && !v.getLsbD i := by
  unfold maskAfterWrite
  split <;> simp [hi]

end Sys2Proof.Machine
end

