-- ==== Sys2Proof/Laws/Pipeline.lean ====
section
/-! SUPPORT. What reading one named bit of the pipeline says of the words the model builds: a bit set, a bit cleared, a shift
(R81 to R83), and that a word without foreign bits is known by its named bits. -/

namespace Sys2Proof.Machine

theorem PipeBit.pos_lt (b : PipeBit) : b.pos < 22 := by cases b <;> decide

theorem PipeBit.pos_injective {b c : PipeBit} (h : b.pos = c.pos) : b = c := by
  cases b <;> cases c <;> first | rfl | exact absurd h (by decide)

/-- Every position below 22 carries a named bit (R81). -/
theorem PipeBit.exists_pos {i : Nat} (h : i < 22) : ∃ b : PipeBit, b.pos = i := by
  have all : [PipeBit.countA0, .countA1, .countA2, .countA3, .countB0, .countB1, .countB2, .countB3, .loadA0, .loadA1, .loadB0,
      .loadB1, .pb6Low0, .pb6Low1, .pb7Low0, .pb7Low1, .int0, .int1, .oneShotA0, .oneShotB0, .pcHigh0, .pcHigh1].map PipeBit.pos
      = List.range 22 := by decide
  have hmem : i ∈ List.range 22 := List.mem_range.mpr h
  rw [← all, List.mem_map] at hmem
  exact ⟨hmem.choose, hmem.choose_spec.2⟩

@[simp] theorem hasBit_zero (b : PipeBit) : hasBit 0#32 b = false := by simp [hasBit]

@[simp] theorem hasBit_or (p q : PipeWord) (b : PipeBit) : hasBit (p ||| q) b = (hasBit p b || hasBit q b) := by simp [hasBit]

theorem hasBit_mask (b c : PipeBit) : hasBit b.mask c = decide (b = c) := by
  have hb := b.pos_lt
  have : decide (b.pos = c.pos) = decide (b = c) := decide_eq_decide.mpr ⟨PipeBit.pos_injective, fun h => h ▸ rfl⟩
  simp only [hasBit, PipeBit.mask, BitVec.getLsbD_twoPow, this]
  simp [show b.pos < 32 by omega]

/-- `p | b` sets the bit `b` and no other (R10). -/
@[simp] theorem hasBit_setBit (p : PipeWord) (b c : PipeBit) : hasBit (setBit p b) c = (hasBit p c || decide (b = c)) := by
  rw [setBit, hasBit_or, hasBit_mask]

/-- `p & ~b` clears the bit `b` and no other (R10). -/
@[simp] theorem hasBit_clearBit (p : PipeWord) (b c : PipeBit) : hasBit (clearBit p b) c = (hasBit p c && !decide (b = c)) := by
  have hc := c.pos_lt
  have h := hasBit_mask b c
  unfold hasBit at h
  unfold hasBit clearBit
  rw [BitVec.getLsbD_and, BitVec.getLsbD_not, h]
  simp [show c.pos < 32 by omega]

/-- The stage before, for a bit at a stage of 1 or more (R82). -/
def PipeBit.before : PipeBit → Option PipeBit
  | .countA1 => some .countA0
  | .countA2 => some .countA1
  | .countA3 => some .countA2
  | .countB1 => some .countB0
  | .countB2 => some .countB1
  | .countB3 => some .countB2
  | .loadA1 => some .loadA0
  | .loadB1 => some .loadB0
  | .pb6Low1 => some .pb6Low0
  | .pb7Low1 => some .pb7Low0
  | .int1 => some .int0
  | .pcHigh1 => some .pcHigh0
  | .countA0 | .countB0 | .loadA0 | .loadB0 | .pb6Low0 | .pb7Low0 | .int0 | .oneShotA0 | .oneShotB0 | .pcHigh0 => none

/-- The bit of the stage before, false at stage 0. -/
def stageBefore (p : PipeWord) (b : PipeBit) : Bool :=
  match b.before with
  | some c => hasBit p c
  | none => false

/-- The shift advances every chain by one stage and re-enters `feed` at its own positions (R83, R86). -/
theorem hasBit_shiftPipe (p f : PipeWord) (b : PipeBit) : hasBit (shiftPipe p f) b = (stageBefore p b || hasBit f b) := by
  rw [shiftPipe, hasBit_or]
  congr 1
  cases b <;> simp [hasBit, stageBefore, PipeBit.before, PipeBit.pos, shiftMask]

/-- `feed` without foreign bits holds none of the eighteen other bits (R84). -/
theorem hasBit_feed {f : PipeWord} (h : f &&& ~~~feedBits = 0#32) (b : PipeBit)
    (hb : b ≠ .countA0 ∧ b ≠ .countB0 ∧ b ≠ .oneShotA0 ∧ b ≠ .oneShotB0) : hasBit f b = false := by
  have hget : (f &&& ~~~feedBits).getLsbD b.pos = false := by rw [h]; simp
  revert hget
  obtain ⟨h1, h2, h3, h4⟩ := hb
  cases b <;> first
    | contradiction
    | (simp only [hasBit, PipeBit.pos, BitVec.getLsbD_and, BitVec.getLsbD_not, feedBits]
       intro hget
       revert hget
       simp)

/-- Two words without bits above 21 are equal when their named bits are (R93). -/
theorem pipe_ext {p q : PipeWord} (hp : p &&& ~~~usedBits = 0#32) (hq : q &&& ~~~usedBits = 0#32)
    (h : ∀ b, hasBit p b = hasBit q b) : p = q := by
  have high : ∀ {r : PipeWord}, r &&& ~~~usedBits = 0#32 → ∀ i, 22 ≤ i → i < 32 → r.getLsbD i = false := by
    intro r hr i h1 h2
    have hget : (r &&& ~~~usedBits).getLsbD i = false := by rw [hr]; simp
    rw [BitVec.getLsbD_and, BitVec.getLsbD_not] at hget
    have : usedBits.getLsbD i = false := by
      have : i = 22 ∨ i = 23 ∨ i = 24 ∨ i = 25 ∨ i = 26 ∨ i = 27 ∨ i = 28 ∨ i = 29 ∨ i = 30 ∨ i = 31 := by omega
      rcases this with h | h | h | h | h | h | h | h | h | h <;> subst h <;> decide
    simpa only [this, h2, decide_true, Bool.true_and, Bool.not_false, Bool.and_true] using hget
  refine BitVec.eq_of_getLsbD_eq fun i hi => ?_
  by_cases hlow : i < 22
  · obtain ⟨b, rfl⟩ := PipeBit.exists_pos hlow
    exact h b
  · rw [high hp i (by omega) hi, high hq i (by omega) hi]

end Sys2Proof.Machine
end

