-- ==== Sys2Proof/Laws/State.lean ====
section
/-! SUPPORT. One lemma per field and named update of State, true by unfolding the update once; later proofs cite these and never
unfold a record update. -/

namespace Sys2Proof.Machine

variable (s : State) (x : TimerId) (t : Timer) (b : PipeBit) (r : Byte) (c : Cause)

theorem TimerId.forall_iff {p : TimerId → Prop} : (∀ x, p x) ↔ p .a ∧ p .b :=
  ⟨fun h => ⟨h .a, h .b⟩, fun h x => by cases x; exacts [h.1, h.2]⟩

@[simp] theorem State.timer_a : s.timer .a = s.timerA := rfl
@[simp] theorem State.timer_b : s.timer .b = s.timerB := rfl
@[simp] theorem State.timer_setTimer_same : (s.setTimer x t).timer x = t := by cases x <;> rfl
theorem State.timer_setTimer_other {x y : TimerId} (h : y ≠ x) : (s.setTimer x t).timer y = s.timer y := by
  cases x <;> cases y <;> first | rfl | exact absurd rfl h
@[simp] theorem State.timer_a_setTimer_b : (s.setTimer .b t).timerA = s.timerA := rfl
@[simp] theorem State.timer_b_setTimer_a : (s.setTimer .a t).timerB = s.timerB := rfl
@[simp] theorem State.timer_a_setTimer_a : (s.setTimer .a t).timerA = t := rfl
@[simp] theorem State.timer_b_setTimer_b : (s.setTimer .b t).timerB = t := rfl
@[simp] theorem State.setTimer_setTimer (u : Timer) : (s.setTimer x t).setTimer x u = s.setTimer x u := by cases x <;> rfl
@[simp] theorem State.setTimer_timer : s.setTimer x (s.timer x) = s := by cases x <;> rfl

@[simp] theorem State.setTimer_pra : (s.setTimer x t).pra = s.pra := by cases x <;> rfl
@[simp] theorem State.setTimer_prb : (s.setTimer x t).prb = s.prb := by cases x <;> rfl
@[simp] theorem State.setTimer_ddra : (s.setTimer x t).ddra = s.ddra := by cases x <;> rfl
@[simp] theorem State.setTimer_ddrb : (s.setTimer x t).ddrb = s.ddrb := by cases x <;> rfl
@[simp] theorem State.setTimer_pcLine : (s.setTimer x t).pcLine = s.pcLine := by cases x <;> rfl
@[simp] theorem State.setTimer_icr : (s.setTimer x t).icr = s.icr := by cases x <;> rfl
@[simp] theorem State.setTimer_imr : (s.setTimer x t).imr = s.imr := by cases x <;> rfl
@[simp] theorem State.setTimer_irq : (s.setTimer x t).irq = s.irq := by cases x <;> rfl
@[simp] theorem State.setTimer_tod10 : (s.setTimer x t).tod10 = s.tod10 := by cases x <;> rfl
@[simp] theorem State.setTimer_todSec : (s.setTimer x t).todSec = s.todSec := by cases x <;> rfl
@[simp] theorem State.setTimer_todMin : (s.setTimer x t).todMin = s.todMin := by cases x <;> rfl
@[simp] theorem State.setTimer_todHr : (s.setTimer x t).todHr = s.todHr := by cases x <;> rfl
@[simp] theorem State.setTimer_pending : (s.setTimer x t).pending = s.pending := by cases x <;> rfl
@[simp] theorem State.setTimer_feed : (s.setTimer x t).feed = s.feed := by cases x <;> rfl
@[simp] theorem State.setTimer_idle : (s.setTimer x t).idle = s.idle := by cases x <;> rfl
@[simp] theorem State.setTimer_idleLeft : (s.setTimer x t).idleLeft = s.idleLeft := by cases x <;> rfl
@[simp] theorem State.setTimer_paExt : (s.setTimer x t).paExt = s.paExt := by cases x <;> rfl
@[simp] theorem State.setTimer_pbExt : (s.setTimer x t).pbExt = s.pbExt := by cases x <;> rfl
@[simp] theorem State.setTimer_gate : (s.setTimer x t).gate = s.gate := by cases x <;> rfl
@[simp] theorem State.setTimer_config : (s.setTimer x t).config = s.config := by cases x <;> rfl
@[simp] theorem State.setTimer_stimulus : (s.setTimer x t).stimulus = s.stimulus := by cases x <;> rfl
@[simp] theorem State.setTimer_returned : (s.setTimer x t).returned = s.returned := by cases x <;> rfl

@[simp] theorem schedule_pending : (schedule b s).pending = setBit s.pending b := rfl
@[simp] theorem schedule_timerA : (schedule b s).timerA = s.timerA := rfl
@[simp] theorem schedule_timerB : (schedule b s).timerB = s.timerB := rfl
@[simp] theorem schedule_pra : (schedule b s).pra = s.pra := rfl
@[simp] theorem schedule_prb : (schedule b s).prb = s.prb := rfl
@[simp] theorem schedule_ddra : (schedule b s).ddra = s.ddra := rfl
@[simp] theorem schedule_ddrb : (schedule b s).ddrb = s.ddrb := rfl
@[simp] theorem schedule_pcLine : (schedule b s).pcLine = s.pcLine := rfl
@[simp] theorem schedule_icr : (schedule b s).icr = s.icr := rfl
@[simp] theorem schedule_imr : (schedule b s).imr = s.imr := rfl
@[simp] theorem schedule_irq : (schedule b s).irq = s.irq := rfl
@[simp] theorem schedule_tod10 : (schedule b s).tod10 = s.tod10 := rfl
@[simp] theorem schedule_todSec : (schedule b s).todSec = s.todSec := rfl
@[simp] theorem schedule_todMin : (schedule b s).todMin = s.todMin := rfl
@[simp] theorem schedule_todHr : (schedule b s).todHr = s.todHr := rfl
@[simp] theorem schedule_feed : (schedule b s).feed = s.feed := rfl
@[simp] theorem schedule_idle : (schedule b s).idle = s.idle := rfl
@[simp] theorem schedule_idleLeft : (schedule b s).idleLeft = s.idleLeft := rfl
@[simp] theorem schedule_paExt : (schedule b s).paExt = s.paExt := rfl
@[simp] theorem schedule_pbExt : (schedule b s).pbExt = s.pbExt := rfl
@[simp] theorem schedule_gate : (schedule b s).gate = s.gate := rfl
@[simp] theorem schedule_config : (schedule b s).config = s.config := rfl
@[simp] theorem schedule_stimulus : (schedule b s).stimulus = s.stimulus := rfl
@[simp] theorem schedule_returned : (schedule b s).returned = s.returned := rfl
@[simp] theorem schedule_timer : (schedule b s).timer x = s.timer x := by cases x <;> rfl

@[simp] theorem unschedule_pending : (unschedule b s).pending = clearBit s.pending b := rfl
@[simp] theorem unschedule_timerA : (unschedule b s).timerA = s.timerA := rfl
@[simp] theorem unschedule_timerB : (unschedule b s).timerB = s.timerB := rfl
@[simp] theorem unschedule_pra : (unschedule b s).pra = s.pra := rfl
@[simp] theorem unschedule_prb : (unschedule b s).prb = s.prb := rfl
@[simp] theorem unschedule_ddra : (unschedule b s).ddra = s.ddra := rfl
@[simp] theorem unschedule_ddrb : (unschedule b s).ddrb = s.ddrb := rfl
@[simp] theorem unschedule_pcLine : (unschedule b s).pcLine = s.pcLine := rfl
@[simp] theorem unschedule_icr : (unschedule b s).icr = s.icr := rfl
@[simp] theorem unschedule_imr : (unschedule b s).imr = s.imr := rfl
@[simp] theorem unschedule_irq : (unschedule b s).irq = s.irq := rfl
@[simp] theorem unschedule_tod10 : (unschedule b s).tod10 = s.tod10 := rfl
@[simp] theorem unschedule_todSec : (unschedule b s).todSec = s.todSec := rfl
@[simp] theorem unschedule_todMin : (unschedule b s).todMin = s.todMin := rfl
@[simp] theorem unschedule_todHr : (unschedule b s).todHr = s.todHr := rfl
@[simp] theorem unschedule_feed : (unschedule b s).feed = s.feed := rfl
@[simp] theorem unschedule_idle : (unschedule b s).idle = s.idle := rfl
@[simp] theorem unschedule_idleLeft : (unschedule b s).idleLeft = s.idleLeft := rfl
@[simp] theorem unschedule_paExt : (unschedule b s).paExt = s.paExt := rfl
@[simp] theorem unschedule_pbExt : (unschedule b s).pbExt = s.pbExt := rfl
@[simp] theorem unschedule_gate : (unschedule b s).gate = s.gate := rfl
@[simp] theorem unschedule_config : (unschedule b s).config = s.config := rfl
@[simp] theorem unschedule_stimulus : (unschedule b s).stimulus = s.stimulus := rfl
@[simp] theorem unschedule_returned : (unschedule b s).returned = s.returned := rfl
@[simp] theorem unschedule_timer : (unschedule b s).timer x = s.timer x := by cases x <;> rfl

@[simp] theorem returnByte_returned : (returnByte r s).returned = r :: s.returned := rfl
@[simp] theorem returnByte_timerA : (returnByte r s).timerA = s.timerA := rfl
@[simp] theorem returnByte_timerB : (returnByte r s).timerB = s.timerB := rfl
@[simp] theorem returnByte_pra : (returnByte r s).pra = s.pra := rfl
@[simp] theorem returnByte_prb : (returnByte r s).prb = s.prb := rfl
@[simp] theorem returnByte_ddra : (returnByte r s).ddra = s.ddra := rfl
@[simp] theorem returnByte_ddrb : (returnByte r s).ddrb = s.ddrb := rfl
@[simp] theorem returnByte_pcLine : (returnByte r s).pcLine = s.pcLine := rfl
@[simp] theorem returnByte_icr : (returnByte r s).icr = s.icr := rfl
@[simp] theorem returnByte_imr : (returnByte r s).imr = s.imr := rfl
@[simp] theorem returnByte_irq : (returnByte r s).irq = s.irq := rfl
@[simp] theorem returnByte_tod10 : (returnByte r s).tod10 = s.tod10 := rfl
@[simp] theorem returnByte_todSec : (returnByte r s).todSec = s.todSec := rfl
@[simp] theorem returnByte_todMin : (returnByte r s).todMin = s.todMin := rfl
@[simp] theorem returnByte_todHr : (returnByte r s).todHr = s.todHr := rfl
@[simp] theorem returnByte_pending : (returnByte r s).pending = s.pending := rfl
@[simp] theorem returnByte_feed : (returnByte r s).feed = s.feed := rfl
@[simp] theorem returnByte_idle : (returnByte r s).idle = s.idle := rfl
@[simp] theorem returnByte_idleLeft : (returnByte r s).idleLeft = s.idleLeft := rfl
@[simp] theorem returnByte_paExt : (returnByte r s).paExt = s.paExt := rfl
@[simp] theorem returnByte_pbExt : (returnByte r s).pbExt = s.pbExt := rfl
@[simp] theorem returnByte_gate : (returnByte r s).gate = s.gate := rfl
@[simp] theorem returnByte_config : (returnByte r s).config = s.config := rfl
@[simp] theorem returnByte_stimulus : (returnByte r s).stimulus = s.stimulus := rfl
@[simp] theorem returnByte_timer : (returnByte r s).timer x = s.timer x := by cases x <;> rfl

@[simp] theorem raiseCause_icr : (raiseCause c s).icr = withCause s.icr c := rfl
@[simp] theorem raiseCause_timerA : (raiseCause c s).timerA = s.timerA := rfl
@[simp] theorem raiseCause_timerB : (raiseCause c s).timerB = s.timerB := rfl
@[simp] theorem raiseCause_pra : (raiseCause c s).pra = s.pra := rfl
@[simp] theorem raiseCause_prb : (raiseCause c s).prb = s.prb := rfl
@[simp] theorem raiseCause_ddra : (raiseCause c s).ddra = s.ddra := rfl
@[simp] theorem raiseCause_ddrb : (raiseCause c s).ddrb = s.ddrb := rfl
@[simp] theorem raiseCause_pcLine : (raiseCause c s).pcLine = s.pcLine := rfl
@[simp] theorem raiseCause_imr : (raiseCause c s).imr = s.imr := rfl
@[simp] theorem raiseCause_irq : (raiseCause c s).irq = s.irq := rfl
@[simp] theorem raiseCause_tod10 : (raiseCause c s).tod10 = s.tod10 := rfl
@[simp] theorem raiseCause_todSec : (raiseCause c s).todSec = s.todSec := rfl
@[simp] theorem raiseCause_todMin : (raiseCause c s).todMin = s.todMin := rfl
@[simp] theorem raiseCause_todHr : (raiseCause c s).todHr = s.todHr := rfl
@[simp] theorem raiseCause_pending : (raiseCause c s).pending = s.pending := rfl
@[simp] theorem raiseCause_feed : (raiseCause c s).feed = s.feed := rfl
@[simp] theorem raiseCause_idle : (raiseCause c s).idle = s.idle := rfl
@[simp] theorem raiseCause_idleLeft : (raiseCause c s).idleLeft = s.idleLeft := rfl
@[simp] theorem raiseCause_paExt : (raiseCause c s).paExt = s.paExt := rfl
@[simp] theorem raiseCause_pbExt : (raiseCause c s).pbExt = s.pbExt := rfl
@[simp] theorem raiseCause_gate : (raiseCause c s).gate = s.gate := rfl
@[simp] theorem raiseCause_config : (raiseCause c s).config = s.config := rfl
@[simp] theorem raiseCause_stimulus : (raiseCause c s).stimulus = s.stimulus := rfl
@[simp] theorem raiseCause_returned : (raiseCause c s).returned = s.returned := rfl
@[simp] theorem raiseCause_timer : (raiseCause c s).timer x = s.timer x := by cases x <;> rfl

@[simp] theorem acknowledge_icr : (acknowledge s).icr = 0 := rfl
@[simp] theorem acknowledge_irq : (acknowledge s).irq = false := rfl
@[simp] theorem acknowledge_pending :
    (acknowledge s).pending = clearBit (clearBit s.pending .int0) .int1 := rfl
@[simp] theorem acknowledge_timerA : (acknowledge s).timerA = s.timerA := rfl
@[simp] theorem acknowledge_timerB : (acknowledge s).timerB = s.timerB := rfl
@[simp] theorem acknowledge_pra : (acknowledge s).pra = s.pra := rfl
@[simp] theorem acknowledge_prb : (acknowledge s).prb = s.prb := rfl
@[simp] theorem acknowledge_ddra : (acknowledge s).ddra = s.ddra := rfl
@[simp] theorem acknowledge_ddrb : (acknowledge s).ddrb = s.ddrb := rfl
@[simp] theorem acknowledge_pcLine : (acknowledge s).pcLine = s.pcLine := rfl
@[simp] theorem acknowledge_imr : (acknowledge s).imr = s.imr := rfl
@[simp] theorem acknowledge_tod10 : (acknowledge s).tod10 = s.tod10 := rfl
@[simp] theorem acknowledge_todSec : (acknowledge s).todSec = s.todSec := rfl
@[simp] theorem acknowledge_todMin : (acknowledge s).todMin = s.todMin := rfl
@[simp] theorem acknowledge_todHr : (acknowledge s).todHr = s.todHr := rfl
@[simp] theorem acknowledge_feed : (acknowledge s).feed = s.feed := rfl
@[simp] theorem acknowledge_idle : (acknowledge s).idle = s.idle := rfl
@[simp] theorem acknowledge_idleLeft : (acknowledge s).idleLeft = s.idleLeft := rfl
@[simp] theorem acknowledge_paExt : (acknowledge s).paExt = s.paExt := rfl
@[simp] theorem acknowledge_pbExt : (acknowledge s).pbExt = s.pbExt := rfl
@[simp] theorem acknowledge_gate : (acknowledge s).gate = s.gate := rfl
@[simp] theorem acknowledge_config : (acknowledge s).config = s.config := rfl
@[simp] theorem acknowledge_stimulus : (acknowledge s).stimulus = s.stimulus := rfl
@[simp] theorem acknowledge_returned : (acknowledge s).returned = s.returned := rfl
@[simp] theorem acknowledge_timer : (acknowledge s).timer x = s.timer x := by cases x <;> rfl

end Sys2Proof.Machine
end

