-- ==== Sys2Proof/Laws/Ops.lean ====
section
/-! SUPPORT. The shared operations: what `Absorb`, scheduling an interrupt and asserting the line can do, said once. -/

namespace Sys2Proof.Machine

/-- `Absorb()` says in one lemma: stored counters become the logical ones, the chip is Active, nothing else changes (R170). -/
theorem absorb_eq (s : State) : absorb s =
    { s with timerA := reconciled .a s, timerB := reconciled .b s, idle := false, idleLeft := if s.idle then 0 else s.idleLeft } := by
  cases h : s.idle
  · obtain ⟨⟩ := s
    simp_all [absorb, reconciled, logicalCounter]
  · simp [absorb, h]

@[simp] theorem absorb_pra (s : State) : (absorb s).pra = s.pra := by rw [absorb_eq]
@[simp] theorem absorb_prb (s : State) : (absorb s).prb = s.prb := by rw [absorb_eq]
@[simp] theorem absorb_ddra (s : State) : (absorb s).ddra = s.ddra := by rw [absorb_eq]
@[simp] theorem absorb_ddrb (s : State) : (absorb s).ddrb = s.ddrb := by rw [absorb_eq]
@[simp] theorem absorb_pcLine (s : State) : (absorb s).pcLine = s.pcLine := by rw [absorb_eq]
@[simp] theorem absorb_icr (s : State) : (absorb s).icr = s.icr := by rw [absorb_eq]
@[simp] theorem absorb_imr (s : State) : (absorb s).imr = s.imr := by rw [absorb_eq]
@[simp] theorem absorb_irq (s : State) : (absorb s).irq = s.irq := by rw [absorb_eq]
@[simp] theorem absorb_tod10 (s : State) : (absorb s).tod10 = s.tod10 := by rw [absorb_eq]
@[simp] theorem absorb_todSec (s : State) : (absorb s).todSec = s.todSec := by rw [absorb_eq]
@[simp] theorem absorb_todMin (s : State) : (absorb s).todMin = s.todMin := by rw [absorb_eq]
@[simp] theorem absorb_todHr (s : State) : (absorb s).todHr = s.todHr := by rw [absorb_eq]
@[simp] theorem absorb_pending (s : State) : (absorb s).pending = s.pending := by rw [absorb_eq]
@[simp] theorem absorb_feed (s : State) : (absorb s).feed = s.feed := by rw [absorb_eq]
@[simp] theorem absorb_idle (s : State) : (absorb s).idle = false := by rw [absorb_eq]
@[simp] theorem absorb_paExt (s : State) : (absorb s).paExt = s.paExt := by rw [absorb_eq]
@[simp] theorem absorb_pbExt (s : State) : (absorb s).pbExt = s.pbExt := by rw [absorb_eq]
@[simp] theorem absorb_gate (s : State) : (absorb s).gate = s.gate := by rw [absorb_eq]
@[simp] theorem absorb_config (s : State) : (absorb s).config = s.config := by rw [absorb_eq]
@[simp] theorem absorb_stimulus (s : State) : (absorb s).stimulus = s.stimulus := by rw [absorb_eq]
@[simp] theorem absorb_returned (s : State) : (absorb s).returned = s.returned := by rw [absorb_eq]
@[simp] theorem absorb_timerA (s : State) : (absorb s).timerA = reconciled .a s := by rw [absorb_eq]
@[simp] theorem absorb_timerB (s : State) : (absorb s).timerB = reconciled .b s := by rw [absorb_eq]
@[simp] theorem absorb_timer (x : TimerId) (s : State) : (absorb s).timer x = reconciled x s := by
  cases x <;> simp
theorem absorb_of_active {s : State} (h : s.idle = false) : absorb s = s := by simp [absorb, h]

@[simp] theorem reconciled_latch (x : TimerId) (s : State) : (reconciled x s).latch = (s.timer x).latch := rfl
@[simp] theorem reconciled_counter (x : TimerId) (s : State) : (reconciled x s).counter = logicalCounter x s := rfl
@[simp] theorem reconciled_control (x : TimerId) (s : State) : (reconciled x s).control = (s.timer x).control := rfl
@[simp] theorem reconciled_toggle (x : TimerId) (s : State) : (reconciled x s).toggle = (s.timer x).toggle := rfl
@[simp] theorem reconciled_output (x : TimerId) (s : State) : (reconciled x s).output = (s.timer x).output := rfl

theorem logicalCounter_of_active {s : State} (x : TimerId) (h : s.idle = false) : logicalCounter x s = (s.timer x).counter := by
  simp [logicalCounter, h]

theorem logicalCounter_of_not_counting {s : State} (x : TimerId) (h : counting x s = false) :
    logicalCounter x s = (s.timer x).counter := by simp [logicalCounter, h]

/-- `Absorb()` leaves every logical counter as it was (R176 item 3). -/
@[simp] theorem logicalCounter_absorb (x : TimerId) (s : State) : logicalCounter x (absorb s) = logicalCounter x s := by
  rw [logicalCounter_of_active x (absorb_idle s), absorb_timer, reconciled_counter]

theorem absorb_absorb (s : State) : absorb (absorb s) = absorb s := absorb_of_active (absorb_idle s)

/-- The one thing scheduling an interrupt can do: set `Int0` when an enabled cause is pending and the line is high
(R145, R148). -/
theorem scheduleInterrupt_eq (s : State) : scheduleInterrupt s =
    { s with pending := if mustSchedule s then setBit s.pending .int0 else s.pending } := by
  unfold scheduleInterrupt
  split <;> simp_all [schedule]

/-- The one thing the assertion can do: `irq ← 1` when `Int1` is set (R144). -/
theorem assertInterrupt_eq (s : State) : assertInterrupt s = { s with irq := s.irq || hasBit s.pending .int1 } := by
  unfold assertInterrupt
  split
  · rename_i h; simp [h]
  · rename_i h; simp [h]

/-- The interrupt is due exactly when some cause is both recorded and enabled and the line is high. -/
theorem mustSchedule_iff (s : State) : mustSchedule s = true ↔ s.icr &&& s.imr ≠ 0#5 ∧ s.irq = false := by
  simp [mustSchedule, enabledCauses]

end Sys2Proof.Machine
end

