-- ==== Sys2Proof/Laws/Control.lean ====
section
/-! SUPPORT. A control register write and the interrupt step, each as one record update (R136, R137, R144, R145). -/

namespace Sys2Proof.Machine

theorem writeCount_eq (x : TimerId) (v : Byte) (s : State) : writeCount x v s =
    { s with
      pending := if countsSystemClock x v then setBit (setBit s.pending x.count0) x.count1
        else clearBit (clearBit s.pending x.count0) x.count1
      feed := if countsSystemClock x v then setBit s.feed x.count0 else clearBit s.feed x.count0 } := by
  unfold writeCount
  cases countsSystemClock x v <;> rfl

theorem writeOneShot_eq (x : TimerId) (v : Byte) (s : State) : writeOneShot x v s =
    { s with
      pending := if ctlOneShot v then setBit s.pending x.oneShot else s.pending
      feed := if ctlOneShot v then setBit s.feed x.oneShot else clearBit s.feed x.oneShot } := by
  unfold writeOneShot
  cases ctlOneShot v <;> rfl

theorem writeLoad_eq (x : TimerId) (v : Byte) (s : State) :
    writeLoad x v s = { s with pending := if ctlLoad v then setBit s.pending x.load0 else s.pending } := by
  unfold writeLoad
  cases ctlLoad v <;> rfl

/-- Whether a control byte selects the pulse output, the one case that keeps a pulse in flight (R142). -/
def selectsPulse (v : Byte) : Bool := ctlPbOn v && !ctlToggleMode v

/-- The output bit a control write leaves (R142). -/
def outputAfterWrite (x : TimerId) (v : Byte) (s : State) : Bool :=
  if selectsPulse v then hasBit s.pending x.pbLow1 else if ctlPbOn v then (s.timer x).toggle else (s.timer x).output

theorem writeOutput_eq (x : TimerId) (v : Byte) (s : State) : writeOutput x v s =
    { s.setTimer x { s.timer x with output := outputAfterWrite x v s } with
      pending := if selectsPulse v then s.pending else clearBit (clearBit s.pending x.pbLow0) x.pbLow1 } := by
  have h : writeOutput x v s =
      if selectsPulse v then s.setTimer x { s.timer x with output := hasBit s.pending x.pbLow1 }
      else if ctlPbOn v then
        (unschedule x.pbLow1 (unschedule x.pbLow0 s)).setTimer x
          { (unschedule x.pbLow1 (unschedule x.pbLow0 s)).timer x with
            output := ((unschedule x.pbLow1 (unschedule x.pbLow0 s)).timer x).toggle }
      else unschedule x.pbLow1 (unschedule x.pbLow0 s) := rfl
  rw [h]
  unfold outputAfterWrite
  cases selectsPulse v <;> cases ctlPbOn v <;> cases x <;> rfl

/-- The working copy of `pending` a control write leaves (R136, R137, R140 to R143, R151). -/
def pendingAfterControl (x : TimerId) (v : Byte) (p : PipeWord) : PipeWord :=
  let p := if countsSystemClock x v then setBit (setBit p x.count0) x.count1 else clearBit (clearBit p x.count0) x.count1
  let p := if ctlOneShot v then setBit p x.oneShot else p
  let p := if ctlLoad v then setBit p x.load0 else p
  if selectsPulse v then p else clearBit (clearBit p x.pbLow0) x.pbLow1

/-- `feed` after a control write (R140, R143). -/
def feedAfterControl (x : TimerId) (v : Byte) (f : PipeWord) : PipeWord :=
  let f := if countsSystemClock x v then setBit f x.count0 else clearBit f x.count0
  if ctlOneShot v then setBit f x.oneShot else clearBit f x.oneShot

/-- The record of timer X after a control write (R136, R137). -/
def timerAfterControl (x : TimerId) (v : Byte) (s : State) : Timer :=
  { latch := (s.timer x).latch
    counter := logicalCounter x s
    control := storedControl v
    toggle := toggleAfterWrite (s.timer x) v
    output := if selectsPulse v then hasBit s.pending x.pbLow1
      else if ctlPbOn v then toggleAfterWrite (s.timer x) v else (s.timer x).output }

/-- No other bit of the chain is touched before the output bit reads `pending[PBxLow1]` (R142). -/
theorem pbLow1_before_output (x : TimerId) (v : Byte) (p : PipeWord) :
    hasBit (if ctlLoad v then setBit (if ctlOneShot v then setBit
      (if countsSystemClock x v then setBit (setBit p x.count0) x.count1 else clearBit (clearBit p x.count0) x.count1) x.oneShot
      else if countsSystemClock x v then setBit (setBit p x.count0) x.count1 else clearBit (clearBit p x.count0) x.count1) x.load0
      else if ctlOneShot v then setBit
      (if countsSystemClock x v then setBit (setBit p x.count0) x.count1 else clearBit (clearBit p x.count0) x.count1) x.oneShot
      else if countsSystemClock x v then setBit (setBit p x.count0) x.count1 else clearBit (clearBit p x.count0) x.count1)
      x.pbLow1 = hasBit p x.pbLow1 := by
  cases ctlLoad v <;> cases ctlOneShot v <;> cases countsSystemClock x v <;> cases x <;>
    simp [TimerId.count0, TimerId.count1, TimerId.oneShot, TimerId.load0, TimerId.pbLow1]

/-- A control register write as one record update of the absorbed state (R136, R137). -/
theorem writeControl_eq (x : TimerId) (v : Byte) (s : State) : writeControl x v s =
    { (absorb s).setTimer x (timerAfterControl x v s) with
      pending := pendingAfterControl x v s.pending
      feed := feedAfterControl x v s.feed } := by
  unfold writeControl storeControl
  rw [writeOutput_eq, writeToggle, writeLoad_eq, writeOneShot_eq, writeCount_eq]
  have hp := pbLow1_before_output x v s.pending
  cases x <;>
    simp [State.setTimer, outputAfterWrite, timerAfterControl, pendingAfterControl, feedAfterControl, toggleAfterWrite] <;>
    simp_all

/-- The interrupt step of a TICK as one record update (R144, R145, R164). -/
theorem interruptStep_eq (newCause : Bool) (s : State) : interruptStep newCause s =
    { s with
      irq := s.irq || hasBit s.pending .int1
      pending := if newCause && (enabledCauses s != 0#5 && !(s.irq || hasBit s.pending .int1)) then setBit s.pending .int0
        else s.pending } := by
  unfold interruptStep
  rw [assertInterrupt_eq]
  cases newCause
  · rfl
  · simp only [if_true, scheduleInterrupt_eq]; rfl

/-- CAUSE as one record update of the absorbed state (R162). -/
theorem raiseExternal_eq (c : Byte) (s : State) : raiseExternal c s =
    { absorb s with
      icr := s.icr ||| externalCauses c
      pending := if externalCauses c ≠ 0#5 ∧ (s.icr ||| externalCauses c) &&& s.imr ≠ 0#5 ∧ s.irq = false
        then setBit s.pending .int0 else s.pending } := by
  unfold raiseExternal
  by_cases h : externalCauses c = 0#5
  · simp [h]
  · simp [h, scheduleInterrupt_eq, mustSchedule, enabledCauses]

end Sys2Proof.Machine
end

