-- ==== Sys2Proof/Laws/Timers.lean ====
section
/-! SUPPORT. The timer step of a TICK, said once: the next counter, when it underflows, and what an underflow does (R117 to R129). -/

namespace Sys2Proof.Machine

/-- The load or decrement changes the counter of its own timer and nothing else (R117). -/
theorem countStep_eq (x : TimerId) (s : State) :
    countStep x s = s.setTimer x { s.timer x with counter := nextCounter x s } := by
  unfold countStep nextCounter
  split
  · rfl
  · split
    · rfl
    · exact (State.setTimer_timer s x).symm

/-- The underflow condition of R119 on the state before the step. -/
theorem underflowsInStep_eq (x : TimerId) (s : State) :
    underflowsInStep x s = (nextCounter x s == 0#16 && hasBit s.pending x.count2) := by
  simp [underflowsInStep, underflows, countStep_eq]

/-- The record of timer X after its underflow (R125, R126). -/
def timerAfterUnderflow (x : TimerId) (s : State) : Timer :=
  { latch := (s.timer x).latch
    counter := nextCounter x s
    control := if oneShotSelected x s then clearStart (s.timer x).control else (s.timer x).control
    toggle := !(s.timer x).toggle
    output := outputAfterUnderflow { s.timer x with toggle := !(s.timer x).toggle } }

/-- Whether timer X's underflow starts an output pulse (R125). -/
def startsPulse (x : TimerId) (s : State) : Bool := ctlPbOn (s.timer x).control && !ctlToggleMode (s.timer x).control

/-- The working copy of `pending` after an underflow of timer X, without the cascade (R125, R126). -/
def pendingAfterUnderflow (x : TimerId) (s : State) : PipeWord :=
  let p := if startsPulse x s then setBit s.pending x.pbLow0 else s.pending
  setBit (if oneShotSelected x s then clearBit (clearBit (clearBit p x.count0) x.count1) x.count2 else p) x.load0

/-- The output actions of an underflow as one record update (R125). -/
theorem underflowOutput_eq (x : TimerId) (s : State) : underflowOutput x s =
    { s.setTimer x { s.timer x with
        toggle := !(s.timer x).toggle, output := outputAfterUnderflow { s.timer x with toggle := !(s.timer x).toggle } } with
      pending := if startsPulse x s then setBit s.pending x.pbLow0 else s.pending } := by
  have h : underflowOutput x s = if startsPulse x s then
      schedule x.pbLow0 (s.setTimer x { s.timer x with
        toggle := !(s.timer x).toggle, output := outputAfterUnderflow { s.timer x with toggle := !(s.timer x).toggle } })
    else s.setTimer x { s.timer x with
        toggle := !(s.timer x).toggle, output := outputAfterUnderflow { s.timer x with toggle := !(s.timer x).toggle } } := rfl
  rw [h]
  cases startsPulse x s <;> cases x <;> rfl

/-- `OneShotStop(X)` as one record update (R126). -/
theorem oneShotStop_eq (x : TimerId) (s : State) : oneShotStop x s =
    { s.setTimer x { s.timer x with
        control := if oneShotSelected x s then clearStart (s.timer x).control else (s.timer x).control } with
      pending := if oneShotSelected x s then clearBit (clearBit (clearBit s.pending x.count0) x.count1) x.count2 else s.pending
      feed := if oneShotSelected x s then clearBit s.feed x.count0 else s.feed } := by
  unfold oneShotStop
  cases oneShotSelected x s
  · simp only [Bool.false_eq_true, if_false]; cases x <;> rfl
  · rfl

/-- The pulse scheduled by an underflow is not the one-shot select. -/
theorem oneShotSelected_underflowOutput (x : TimerId) (s : State) :
    oneShotSelected x (underflowOutput x s) = oneShotSelected x s := by
  rw [underflowOutput_eq]
  cases startsPulse x s <;> cases x <;> simp [oneShotSelected, TimerId.pbLow0, TimerId.oneShot]

/-- An underflow of timer X in state `u`, the counter already moved, without the cascade (R125, R126). -/
theorem underflowActions_eq (x : TimerId) (s : State) :
    schedule x.load0 (oneShotStop x (underflowOutput x (raiseCause x.cause (countStep x s)))) =
      { s.setTimer x (timerAfterUnderflow x s) with
        icr := withCause s.icr x.cause
        pending := pendingAfterUnderflow x s
        feed := if oneShotSelected x s then clearBit s.feed x.count0 else s.feed } := by
  have h1 : oneShotSelected x (raiseCause x.cause (countStep x s)) = oneShotSelected x s := by
    rw [countStep_eq]; simp [oneShotSelected]
  have h2 : startsPulse x (raiseCause x.cause (countStep x s)) = startsPulse x s := by
    rw [countStep_eq]; simp [startsPulse]
  rw [oneShotStop_eq, oneShotSelected_underflowOutput, h1, underflowOutput_eq, h2, countStep_eq]
  unfold pendingAfterUnderflow timerAfterUnderflow
  cases x <;> simp [State.setTimer, schedule, raiseCause, outputAfterUnderflow] <;> rfl

/-- What a timer step does to a timer that does not underflow: the counter moves and nothing else changes (R117, R119). -/
theorem timerStep_of_no_underflow {x : TimerId} {s : State} (h : underflowsInStep x s = false) :
    timerStep x s = s.setTimer x { s.timer x with counter := nextCounter x s } := by
  unfold underflowsInStep at h
  simp only [timerStep, h, Bool.false_eq_true, if_false]
  exact countStep_eq x s

/-- What an underflow of timer B does (R125, R126). -/
theorem timerStep_b_of_underflow {s : State} (h : underflowsInStep .b s = true) : timerStep .b s =
    { s with
      timerB := timerAfterUnderflow .b s
      icr := withCause s.icr .tb
      pending := pendingAfterUnderflow .b s
      feed := if oneShotSelected .b s then clearBit s.feed .countB0 else s.feed } := by
  unfold underflowsInStep at h
  simp only [timerStep, h, if_true, underflow]
  exact underflowActions_eq .b s

/-- `Cascade()` as one record update (R129). -/
theorem cascade_eq (s : State) :
    cascade s = { s with pending := if cascadeEnabled s then setBit s.pending .countB1 else s.pending } := by
  unfold cascade
  cases cascadeEnabled s <;> rfl

/-- What an underflow of timer A does: as for B, and then the cascade, whose condition reads only timer B's control register and the
gate (R125, R126, R129). -/
theorem timerStep_a_of_underflow {s : State} (h : underflowsInStep .a s = true) : timerStep .a s =
    { s with
      timerA := timerAfterUnderflow .a s
      icr := withCause s.icr .ta
      pending := if cascadeEnabled s then setBit (pendingAfterUnderflow .a s) .countB1 else pendingAfterUnderflow .a s
      feed := if oneShotSelected .a s then clearBit s.feed .countA0 else s.feed } := by
  unfold underflowsInStep at h
  simp only [timerStep, h, if_true, underflow]
  refine (congrArg cascade (underflowActions_eq .a s)).trans ?_
  rw [cascade_eq]
  rfl

/-- Timer X's step leaves the other timer alone (R118). -/
theorem timerStep_other {x y : TimerId} (h : y ≠ x) (s : State) : (timerStep x s).timer y = s.timer y := by
  cases hu : underflowsInStep x s
  · rw [timerStep_of_no_underflow hu, State.timer_setTimer_other _ _ h]
  · match x, y, h, hu with
    | .a, .b, _, hu => rw [timerStep_a_of_underflow hu]; rfl
    | .b, .a, _, hu => rw [timerStep_b_of_underflow hu]; rfl
    | .a, .a, h, _ => exact absurd rfl h
    | .b, .b, h, _ => exact absurd rfl h

/-- The record of timer X after its own step (R117, R125, R126). -/
theorem timerStep_timer (x : TimerId) (s : State) : (timerStep x s).timer x =
    if underflowsInStep x s then timerAfterUnderflow x s else { s.timer x with counter := nextCounter x s } := by
  cases hu : underflowsInStep x s
  · simp [timerStep_of_no_underflow hu]
  · cases x
    · simp [timerStep_a_of_underflow hu]
    · simp [timerStep_b_of_underflow hu]

@[simp] theorem timerStep_pra (x : TimerId) (s : State) : (timerStep x s).pra = s.pra := by
  cases hu : underflowsInStep x s
  · rw [timerStep_of_no_underflow hu, State.setTimer_pra]
  · cases x
    · rw [timerStep_a_of_underflow hu]
    · rw [timerStep_b_of_underflow hu]
@[simp] theorem timerStep_prb (x : TimerId) (s : State) : (timerStep x s).prb = s.prb := by
  cases hu : underflowsInStep x s
  · rw [timerStep_of_no_underflow hu, State.setTimer_prb]
  · cases x
    · rw [timerStep_a_of_underflow hu]
    · rw [timerStep_b_of_underflow hu]
@[simp] theorem timerStep_ddra (x : TimerId) (s : State) : (timerStep x s).ddra = s.ddra := by
  cases hu : underflowsInStep x s
  · rw [timerStep_of_no_underflow hu, State.setTimer_ddra]
  · cases x
    · rw [timerStep_a_of_underflow hu]
    · rw [timerStep_b_of_underflow hu]
@[simp] theorem timerStep_ddrb (x : TimerId) (s : State) : (timerStep x s).ddrb = s.ddrb := by
  cases hu : underflowsInStep x s
  · rw [timerStep_of_no_underflow hu, State.setTimer_ddrb]
  · cases x
    · rw [timerStep_a_of_underflow hu]
    · rw [timerStep_b_of_underflow hu]
@[simp] theorem timerStep_pcLine (x : TimerId) (s : State) : (timerStep x s).pcLine = s.pcLine := by
  cases hu : underflowsInStep x s
  · rw [timerStep_of_no_underflow hu, State.setTimer_pcLine]
  · cases x
    · rw [timerStep_a_of_underflow hu]
    · rw [timerStep_b_of_underflow hu]
@[simp] theorem timerStep_imr (x : TimerId) (s : State) : (timerStep x s).imr = s.imr := by
  cases hu : underflowsInStep x s
  · rw [timerStep_of_no_underflow hu, State.setTimer_imr]
  · cases x
    · rw [timerStep_a_of_underflow hu]
    · rw [timerStep_b_of_underflow hu]
@[simp] theorem timerStep_irq (x : TimerId) (s : State) : (timerStep x s).irq = s.irq := by
  cases hu : underflowsInStep x s
  · rw [timerStep_of_no_underflow hu, State.setTimer_irq]
  · cases x
    · rw [timerStep_a_of_underflow hu]
    · rw [timerStep_b_of_underflow hu]
@[simp] theorem timerStep_tod10 (x : TimerId) (s : State) : (timerStep x s).tod10 = s.tod10 := by
  cases hu : underflowsInStep x s
  · rw [timerStep_of_no_underflow hu, State.setTimer_tod10]
  · cases x
    · rw [timerStep_a_of_underflow hu]
    · rw [timerStep_b_of_underflow hu]
@[simp] theorem timerStep_todSec (x : TimerId) (s : State) : (timerStep x s).todSec = s.todSec := by
  cases hu : underflowsInStep x s
  · rw [timerStep_of_no_underflow hu, State.setTimer_todSec]
  · cases x
    · rw [timerStep_a_of_underflow hu]
    · rw [timerStep_b_of_underflow hu]
@[simp] theorem timerStep_todMin (x : TimerId) (s : State) : (timerStep x s).todMin = s.todMin := by
  cases hu : underflowsInStep x s
  · rw [timerStep_of_no_underflow hu, State.setTimer_todMin]
  · cases x
    · rw [timerStep_a_of_underflow hu]
    · rw [timerStep_b_of_underflow hu]
@[simp] theorem timerStep_todHr (x : TimerId) (s : State) : (timerStep x s).todHr = s.todHr := by
  cases hu : underflowsInStep x s
  · rw [timerStep_of_no_underflow hu, State.setTimer_todHr]
  · cases x
    · rw [timerStep_a_of_underflow hu]
    · rw [timerStep_b_of_underflow hu]
@[simp] theorem timerStep_idle (x : TimerId) (s : State) : (timerStep x s).idle = s.idle := by
  cases hu : underflowsInStep x s
  · rw [timerStep_of_no_underflow hu, State.setTimer_idle]
  · cases x
    · rw [timerStep_a_of_underflow hu]
    · rw [timerStep_b_of_underflow hu]
@[simp] theorem timerStep_idleLeft (x : TimerId) (s : State) : (timerStep x s).idleLeft = s.idleLeft := by
  cases hu : underflowsInStep x s
  · rw [timerStep_of_no_underflow hu, State.setTimer_idleLeft]
  · cases x
    · rw [timerStep_a_of_underflow hu]
    · rw [timerStep_b_of_underflow hu]
@[simp] theorem timerStep_paExt (x : TimerId) (s : State) : (timerStep x s).paExt = s.paExt := by
  cases hu : underflowsInStep x s
  · rw [timerStep_of_no_underflow hu, State.setTimer_paExt]
  · cases x
    · rw [timerStep_a_of_underflow hu]
    · rw [timerStep_b_of_underflow hu]
@[simp] theorem timerStep_pbExt (x : TimerId) (s : State) : (timerStep x s).pbExt = s.pbExt := by
  cases hu : underflowsInStep x s
  · rw [timerStep_of_no_underflow hu, State.setTimer_pbExt]
  · cases x
    · rw [timerStep_a_of_underflow hu]
    · rw [timerStep_b_of_underflow hu]
@[simp] theorem timerStep_gate (x : TimerId) (s : State) : (timerStep x s).gate = s.gate := by
  cases hu : underflowsInStep x s
  · rw [timerStep_of_no_underflow hu, State.setTimer_gate]
  · cases x
    · rw [timerStep_a_of_underflow hu]
    · rw [timerStep_b_of_underflow hu]
@[simp] theorem timerStep_config (x : TimerId) (s : State) : (timerStep x s).config = s.config := by
  cases hu : underflowsInStep x s
  · rw [timerStep_of_no_underflow hu, State.setTimer_config]
  · cases x
    · rw [timerStep_a_of_underflow hu]
    · rw [timerStep_b_of_underflow hu]
@[simp] theorem timerStep_stimulus (x : TimerId) (s : State) : (timerStep x s).stimulus = s.stimulus := by
  cases hu : underflowsInStep x s
  · rw [timerStep_of_no_underflow hu, State.setTimer_stimulus]
  · cases x
    · rw [timerStep_a_of_underflow hu]
    · rw [timerStep_b_of_underflow hu]
@[simp] theorem timerStep_returned (x : TimerId) (s : State) : (timerStep x s).returned = s.returned := by
  cases hu : underflowsInStep x s
  · rw [timerStep_of_no_underflow hu, State.setTimer_returned]
  · cases x
    · rw [timerStep_a_of_underflow hu]
    · rw [timerStep_b_of_underflow hu]

/-- The causes after timer X's step: its own is added by an underflow, none is lost (R125, R188). -/
theorem timerStep_icr (x : TimerId) (s : State) :
    (timerStep x s).icr = if underflowsInStep x s then withCause s.icr x.cause else s.icr := by
  cases hu : underflowsInStep x s
  · simp [timerStep_of_no_underflow hu]
  · cases x
    · simp [timerStep_a_of_underflow hu, TimerId.cause]
    · simp [timerStep_b_of_underflow hu, TimerId.cause]

/-- `feed` after timer X's step: the one-shot stop takes `CountX0` out (R126). -/
theorem timerStep_feed (x : TimerId) (s : State) : (timerStep x s).feed =
    if underflowsInStep x s && oneShotSelected x s then clearBit s.feed x.count0 else s.feed := by
  cases hu : underflowsInStep x s
  · simp [timerStep_of_no_underflow hu]
  · cases x
    · simp [timerStep_a_of_underflow hu, TimerId.count0]
    · simp [timerStep_b_of_underflow hu, TimerId.count0]

/-- The working copy of `pending` after timer X's step (R125, R126, R129). -/
theorem timerStep_pending (x : TimerId) (s : State) : (timerStep x s).pending =
    if underflowsInStep x s then
      (if x = .a ∧ cascadeEnabled s = true then setBit (pendingAfterUnderflow x s) .countB1 else pendingAfterUnderflow x s)
    else s.pending := by
  cases hu : underflowsInStep x s
  · simp [timerStep_of_no_underflow hu]
  · cases x
    · simp [timerStep_a_of_underflow hu]
    · simp [timerStep_b_of_underflow hu]

end Sys2Proof.Machine
end

