-- ==== Sys2Proof/Laws/Clock.lean ====
section
/-! SUPPORT. The per-clock transition: what every step of an Active TICK leaves, what the Idle Optimizer does to a state, and that it
leaves every logical counter as it was (R165 to R171). -/

namespace Sys2Proof.Machine

/-- The end of an output pulse as one record update (R109). -/
theorem pbLowOf_eq (x : TimerId) (s : State) : pbLowOf x s =
    s.setTimer x { s.timer x with output := (s.timer x).output && !hasBit s.pending x.pbLow1 } := by
  unfold pbLowOf
  cases hasBit s.pending x.pbLow1
  · rw [if_neg (by decide)]
    simp only [Bool.not_false, Bool.and_true]
    exact (State.setTimer_timer s x).symm
  · simp

/-- Steps 1 and 2 of an Active TICK: the state the timer steps start from (R108, R109). -/
theorem pinSteps_eq (s : State) : pcReturnStep (pbLowStep s) =
    { s with
      timerA := { s.timerA with output := s.timerA.output && !hasBit s.pending .pb6Low1 }
      timerB := { s.timerB with output := s.timerB.output && !hasBit s.pending .pb7Low1 }
      pcLine := s.pcLine || hasBit s.pending .pcHigh1 } := by
  unfold pcReturnStep pbLowStep
  rw [pbLowOf_eq, pbLowOf_eq]
  cases h : hasBit s.pending .pcHigh1 <;> simp [State.setTimer, TimerId.pbLow1, h]

/-- The state after steps 1 and 2. -/
def afterPins (s : State) : State := pcReturnStep (pbLowStep s)

/-- The state after step 3. -/
def afterTimerA (s : State) : State := timerStep .a (afterPins s)

/-- Whether timer A underflows in an Active TICK of `s`. -/
def newCauseA (s : State) : Bool := nextCounter .a s == 0#16 && hasBit s.pending .countA2

/-- Whether timer B underflows in an Active TICK of `s`. -/
def newCauseB (s : State) : Bool := nextCounter .b s == 0#16 && hasBit s.pending .countB2

theorem nextCounter_afterPins (x : TimerId) (s : State) : nextCounter x (afterPins s) = nextCounter x s := by
  unfold afterPins
  rw [pinSteps_eq]
  cases x <;> rfl

theorem underflowsInStep_a (s : State) : underflowsInStep .a (afterPins s) = newCauseA s := by
  rw [underflowsInStep_eq, nextCounter_afterPins]
  unfold afterPins
  rw [pinSteps_eq]
  rfl

/-- Timer A's step changes no bit of `pending` that timer B's step reads before its own underflow: only the cascade touches B's
chain, and it sets `CountB1` (R118). -/
theorem timerA_keeps_b_bits (s : State) (b : PipeBit)
    (h : b = .countB2 ∨ b = .countB3 ∨ b = .loadB1 ∨ b = .oneShotB0) :
    hasBit (afterTimerA s).pending b = hasBit s.pending b := by
  have hp : (afterPins s).pending = s.pending := by unfold afterPins; rw [pinSteps_eq]
  unfold afterTimerA
  rw [timerStep_pending]
  split
  · rcases h with rfl | rfl | rfl | rfl <;> split <;> simp only [pendingAfterUnderflow, hp] <;>
      cases startsPulse .a (afterPins s) <;> cases oneShotSelected .a (afterPins s) <;>
      simp [TimerId.count0, TimerId.count1, TimerId.count2, TimerId.load0, TimerId.pbLow0]
  · rw [hp]

theorem nextCounter_afterTimerA (s : State) : nextCounter .b (afterTimerA s) = nextCounter .b s := by
  have h1 := timerA_keeps_b_bits s .loadB1 (by simp)
  have h3 := timerA_keeps_b_bits s .countB3 (by simp)
  have ht : (afterTimerA s).timer .b = (afterPins s).timer .b := timerStep_other (by decide) _
  have hl : ((afterPins s).timer .b).latch = s.timerB.latch := by unfold afterPins; rw [pinSteps_eq]; rfl
  have hc : ((afterPins s).timer .b).counter = s.timerB.counter := by unfold afterPins; rw [pinSteps_eq]; rfl
  unfold nextCounter
  simp only [TimerId.load1, TimerId.count3, h1, h3, ht, hl, hc]
  rfl

theorem underflowsInStep_b (s : State) : underflowsInStep .b (afterTimerA s) = newCauseB s := by
  rw [underflowsInStep_eq, nextCounter_afterTimerA, newCauseB]
  congr 1
  exact timerA_keeps_b_bits s .countB2 (by simp)

/-- An Active TICK in the names above: both timer steps, the interrupt step on the causes they raised, the shift (R166). -/
theorem activeTick_eq (s : State) :
    activeTick s = shiftStep (interruptStep (newCauseA s || newCauseB s) (timerStep .b (afterTimerA s))) := by
  rw [← underflowsInStep_a, ← underflowsInStep_b]
  rfl

/-- The counter of timer X after an Active TICK is the one R117 gives. -/
theorem activeTick_counter (x : TimerId) (s : State) : ((activeTick s).timer x).counter = nextCounter x s := by
  rw [activeTick_eq, interruptStep_eq]
  match x with
  | .a =>
    show ((timerStep .b (afterTimerA s)).timer .a).counter = _
    rw [timerStep_other (by decide), afterTimerA, timerStep_timer]
    split <;> exact nextCounter_afterPins .a s
  | .b =>
    show ((timerStep .b (afterTimerA s)).timer .b).counter = _
    rw [timerStep_timer]
    split <;> exact nextCounter_afterTimerA s

/-- The latches are read and never written by an Active TICK (R43). -/
theorem activeTick_latch (x : TimerId) (s : State) : ((activeTick s).timer x).latch = (s.timer x).latch := by
  have hp : ∀ y, ((afterPins s).timer y).latch = (s.timer y).latch := by
    intro y; unfold afterPins; rw [pinSteps_eq]; cases y <;> rfl
  have hstep : ∀ y u, ((timerStep y u).timer y).latch = (u.timer y).latch := by
    intro y u; rw [timerStep_timer]; split <;> rfl
  rw [activeTick_eq, interruptStep_eq]
  match x with
  | .a =>
    show ((timerStep .b (afterTimerA s)).timer .a).latch = _
    rw [timerStep_other (by decide), afterTimerA, hstep, hp]
  | .b =>
    show ((timerStep .b (afterTimerA s)).timer .b).latch = _
    rw [hstep, afterTimerA, timerStep_other (by decide), hp]

/-- The causes after an Active TICK: those that were recorded, and the two timers' (R125, R188). -/
theorem activeTick_icr (s : State) : (activeTick s).icr =
    (let i := if newCauseA s then withCause s.icr .ta else s.icr
     if newCauseB s then withCause i .tb else i) := by
  have hp : (afterPins s).icr = s.icr := by unfold afterPins; rw [pinSteps_eq]
  rw [activeTick_eq, interruptStep_eq]
  show (timerStep .b (afterTimerA s)).icr = _
  rw [timerStep_icr, underflowsInStep_b, afterTimerA, timerStep_icr, underflowsInStep_a, hp]
  rfl

/-- The line after an Active TICK: `Int1` asserts it and nothing in a TICK raises it (R144). -/
theorem activeTick_irq (s : State) : (activeTick s).irq = (s.irq || hasBit s.pending .int1) := by
  have hp : (afterPins s).irq = s.irq := by unfold afterPins; rw [pinSteps_eq]
  have hpend : (afterPins s).pending = s.pending := by unfold afterPins; rw [pinSteps_eq]
  have hint : ∀ y u, hasBit (timerStep y u).pending .int1 = hasBit u.pending .int1 := by
    intro y u
    rw [timerStep_pending]
    split
    · split <;> simp only [pendingAfterUnderflow] <;> cases startsPulse y u <;> cases oneShotSelected y u <;> cases y <;>
        simp [TimerId.count0, TimerId.count1, TimerId.count2, TimerId.load0, TimerId.pbLow0]
    · rfl
  rw [activeTick_eq, interruptStep_eq]
  show ((timerStep .b (afterTimerA s)).irq || hasBit (timerStep .b (afterTimerA s)).pending .int1) = _
  rw [hint, timerStep_irq, afterTimerA, hint, timerStep_irq, hp, hpend]

/-- An Active TICK does not enter or leave Idle by itself (R166). -/
theorem activeTick_idle (s : State) : (activeTick s).idle = s.idle := by
  have hp : (afterPins s).idle = s.idle := by unfold afterPins; rw [pinSteps_eq]
  rw [activeTick_eq, interruptStep_eq]
  show (timerStep .b (afterTimerA s)).idle = _
  rw [timerStep_idle, afterTimerA, timerStep_idle, hp]

theorem preAdvanced_latch (x : TimerId) (n : Nat) (s : State) : (preAdvanced x n s).latch = (s.timer x).latch := by
  unfold preAdvanced; split <;> rfl
theorem preAdvanced_control (x : TimerId) (n : Nat) (s : State) : (preAdvanced x n s).control = (s.timer x).control := by
  unfold preAdvanced; split <;> rfl
theorem preAdvanced_toggle (x : TimerId) (n : Nat) (s : State) : (preAdvanced x n s).toggle = (s.timer x).toggle := by
  unfold preAdvanced; split <;> rfl
theorem preAdvanced_output (x : TimerId) (n : Nat) (s : State) : (preAdvanced x n s).output = (s.timer x).output := by
  unfold preAdvanced; split <;> rfl

/-- What `TryEnterIdle()` can do: nothing, or enter Idle from a steady pipeline, with the running counters pre-advanced by the
clocks it will skip (R168). -/
theorem tryEnterIdle_cases (s : State) : tryEnterIdle s = s ∨
    (s.config.idleEnable = true ∧ steady s.pending s.feed = true ∧
      ∃ n, tryEnterIdle s =
          { s with timerA := preAdvanced .a n s, timerB := preAdvanced .b n s, idle := true, idleLeft := n } ∧
        ((counting .a s = false ∧ counting .b s = false ∧ n = 0) ∨
          (clocksToUnderflow s = some (n + 1) ∧ s.config.idleMin ≤ n))) := by
  unfold tryEnterIdle
  split
  · rename_i h
    simp only [Bool.and_eq_true] at h
    split
    · rename_i hk
      refine .inr ⟨h.1, h.2, 0, ?_, .inl ?_⟩
      · have ha : counting .a s = false := by
          cases ha : counting .a s <;> cases hb : counting .b s <;> simp_all [clocksToUnderflow]
        have hb : counting .b s = false := by
          cases ha : counting .a s <;> cases hb : counting .b s <;> simp_all [clocksToUnderflow]
        simp [preAdvanced, ha, hb]
      · cases ha : counting .a s <;> cases hb : counting .b s <;> simp_all [clocksToUnderflow]
    · rename_i k hk
      split
      · rename_i hmin
        exact .inr ⟨h.1, h.2, k - 1, rfl, .inr ⟨by rw [hk]; congr 1; omega, hmin.2⟩⟩
      · exact .inl rfl
  · exact .inl rfl

/-- Entering Idle leaves every logical counter as it was (R176 item 3). -/
theorem logicalCounter_tryEnterIdle (x : TimerId) (s : State) (h : s.idle = false) :
    logicalCounter x (tryEnterIdle s) = (s.timer x).counter := by
  rcases tryEnterIdle_cases s with heq | ⟨-, -, n, heq, -⟩
  · rw [heq, logicalCounter_of_active x h]
  · rw [heq]
    cases hx : counting x s <;> cases x <;>
      simp_all [logicalCounter, counting, preAdvanced, TimerId.count3]

/-- The logical counter of timer X after the TICK of an Active chip is the one R117 gives. -/
theorem logicalCounter_tick_of_active (x : TimerId) {s : State} (h : s.idle = false) :
    logicalCounter x (tick s) = nextCounter x s := by
  rw [tick, h, if_neg (by decide), logicalCounter_tryEnterIdle _ _ ((activeTick_idle s).trans h), activeTick_counter]

/-- What an Idle TICK does: nothing when no timer runs, else it counts one skipped clock down and wakes at 0 (R169). -/
theorem idleTick_cases (s : State) :
    (counting .a s = false ∧ counting .b s = false ∧ idleTick s = s) ∨
    ((counting .a s = true ∨ counting .b s = true) ∧
      idleTick s = { s with idleLeft := s.idleLeft - 1, idle := decide (s.idleLeft - 1 ≠ 0) }) := by
  unfold idleTick
  cases ha : counting .a s <;> cases hb : counting .b s <;> simp [Bool.beq_eq_decide_eq]

end Sys2Proof.Machine
end

