-- ==== Sys2Proof/Laws/PerInstr.lean ====
section
/-! SUPPORT. The per-instruction family EncodesRow: the word the encoder gives an operation is spelled by the operation's own row of
the opcode map (R70). -/

namespace Sys2Proof.Laws.EncodesRow

/-- The encoder's word matches the operation's match and mask. -/
def Statement (i : Instr) : Prop := (opcodeRow i).spells (encode i) = true

/-- A WR word shows its register and nothing of its data byte under the mask 0xFF00 (R68). -/
theorem writeWord_spells (rs : RegSelect) (db : Byte) :
    writeWord rs db &&& 0xFF00#16 = 0b010#3 ++ 0#1 ++ rs ++ 0#8 := by
  refine BitVec.eq_of_getLsbD_eq fun k hk => ?_
  have mask : (0xFF00#16).getLsbD k = decide (8 ≤ k) := by
    have : k = 0 ∨ k = 1 ∨ k = 2 ∨ k = 3 ∨ k = 4 ∨ k = 5 ∨ k = 6 ∨ k = 7 ∨ k = 8 ∨ k = 9 ∨ k = 10 ∨ k = 11 ∨ k = 12 ∨
      k = 13 ∨ k = 14 ∨ k = 15 := by omega
    rcases this with h | h | h | h | h | h | h | h | h | h | h | h | h | h | h | h <;> subst h <;> decide
  simp only [writeWord, BitVec.getLsbD_and, mask, BitVec.getLsbD_append]
  by_cases h : k < 8
  · simp [h, show ¬ 8 ≤ k by omega]
  · simp [h, show 8 ≤ k by omega]

/-- An IN8 word shows nothing of its byte under the mask 0xFF00 (R69). -/
theorem in8Word_spells (kind : BitVec 3) (v : Byte) : in8Word kind v &&& 0xFF00#16 = kind ++ 0#5 ++ 0#8 := by
  refine BitVec.eq_of_getLsbD_eq fun k hk => ?_
  have mask : (0xFF00#16).getLsbD k = decide (8 ≤ k) := by
    have : k = 0 ∨ k = 1 ∨ k = 2 ∨ k = 3 ∨ k = 4 ∨ k = 5 ∨ k = 6 ∨ k = 7 ∨ k = 8 ∨ k = 9 ∨ k = 10 ∨ k = 11 ∨ k = 12 ∨
      k = 13 ∨ k = 14 ∨ k = 15 := by omega
    rcases this with h | h | h | h | h | h | h | h | h | h | h | h | h | h | h | h <;> subst h <;> decide
  simp only [in8Word, BitVec.getLsbD_and, mask, BitVec.getLsbD_append]
  by_cases h : k < 8
  · simp [h, show ¬ 8 ≤ k by omega]
  · simp [h, show 8 ≤ k by omega]

theorem tick : Statement .tick := rfl
theorem reset : Statement .reset := rfl
theorem rdPra : Statement .rdPra := rfl
theorem rdPrb : Statement .rdPrb := rfl
theorem rdDdra : Statement .rdDdra := rfl
theorem rdDdrb : Statement .rdDdrb := rfl
theorem rdTalo : Statement .rdTalo := rfl
theorem rdTahi : Statement .rdTahi := rfl
theorem rdTblo : Statement .rdTblo := rfl
theorem rdTbhi : Statement .rdTbhi := rfl
theorem rdTod10 : Statement .rdTod10 := rfl
theorem rdTodsec : Statement .rdTodsec := rfl
theorem rdTodmin : Statement .rdTodmin := rfl
theorem rdTodhr : Statement .rdTodhr := rfl
theorem rdSdr : Statement .rdSdr := rfl
theorem rdIcr : Statement .rdIcr := rfl
theorem rdCra : Statement .rdCra := rfl
theorem rdCrb : Statement .rdCrb := rfl
theorem wrPra (db : Byte) : Statement (.wrPra db) := beq_iff_eq.mpr (writeWord_spells _ db)
theorem wrPrb (db : Byte) : Statement (.wrPrb db) := beq_iff_eq.mpr (writeWord_spells _ db)
theorem wrDdra (db : Byte) : Statement (.wrDdra db) := beq_iff_eq.mpr (writeWord_spells _ db)
theorem wrDdrb (db : Byte) : Statement (.wrDdrb db) := beq_iff_eq.mpr (writeWord_spells _ db)
theorem wrTalo (db : Byte) : Statement (.wrTalo db) := beq_iff_eq.mpr (writeWord_spells _ db)
theorem wrTahi (db : Byte) : Statement (.wrTahi db) := beq_iff_eq.mpr (writeWord_spells _ db)
theorem wrTblo (db : Byte) : Statement (.wrTblo db) := beq_iff_eq.mpr (writeWord_spells _ db)
theorem wrTbhi (db : Byte) : Statement (.wrTbhi db) := beq_iff_eq.mpr (writeWord_spells _ db)
theorem wrTod10 (db : Byte) : Statement (.wrTod10 db) := beq_iff_eq.mpr (writeWord_spells _ db)
theorem wrTodsec (db : Byte) : Statement (.wrTodsec db) := beq_iff_eq.mpr (writeWord_spells _ db)
theorem wrTodmin (db : Byte) : Statement (.wrTodmin db) := beq_iff_eq.mpr (writeWord_spells _ db)
theorem wrTodhr (db : Byte) : Statement (.wrTodhr db) := beq_iff_eq.mpr (writeWord_spells _ db)
theorem wrSdr (db : Byte) : Statement (.wrSdr db) := beq_iff_eq.mpr (writeWord_spells _ db)
theorem wrImr (db : Byte) : Statement (.wrImr db) := beq_iff_eq.mpr (writeWord_spells _ db)
theorem wrCra (db : Byte) : Statement (.wrCra db) := beq_iff_eq.mpr (writeWord_spells _ db)
theorem wrCrb (db : Byte) : Statement (.wrCrb db) := beq_iff_eq.mpr (writeWord_spells _ db)
theorem inpa (v : Byte) : Statement (.inpa v) := beq_iff_eq.mpr (in8Word_spells _ v)
theorem inpb (v : Byte) : Statement (.inpb v) := beq_iff_eq.mpr (in8Word_spells _ v)
theorem gate (g : Bool) : Statement (.gate g) := by cases g <;> exact rfl
theorem cause (c : Byte) : Statement (.cause c) := by
  have h : ∀ m : BitVec 3, incWord m &&& 0xFFE3#16 = 0xE000#16 := by decide
  exact beq_iff_eq.mpr (h _)

end Sys2Proof.Laws.EncodesRow
end

