-- ==== Sys2Proof/Laws/Step.lean ====
section
/-! SUPPORT. What one step can do (R57, R76). -/

namespace Sys2Proof.Machine

/-- A step that answers a next state either found no stimulus and changed nothing, or applied the decoded head word. -/
theorem step_next_cases {s t : State} (h : step s = .next t) :
    (s.stimulus = [] ∧ t = s) ∨
    ∃ w rest i, s.stimulus = w :: rest ∧ decode w = some i ∧ exec i { s with stimulus := rest } = .next t := by
  unfold step at h
  split at h
  · rename_i hs
    exact .inl ⟨hs, by simpa using h.symm⟩
  · rename_i w rest hs
    split at h
    · exact absurd h (by simp)
    · rename_i i hd
      exact .inr ⟨w, rest, i, hs, hd, h⟩

end Sys2Proof.Machine
end

