-- ==== Sys2Proof/Tests/Slice0.lean ====
section
/-! SUPPORT. The model's own tests.  Expected results come from the spec's encodings (30_encoding.md) and vectors
(95_test_vectors.md), never from the model.  The witnesses at the end show, for each statement with hypotheses, a concrete state and
operands that meet all of them together. -/

namespace Sys2Proof.Tests

open Sys2Proof.Machine

/-- Whether an outcome is a next state with a property. -/
def next (r : StepResult) (p : State → Bool) : Bool :=
  match r with
  | .next t => p t
  | _ => false

/-- Whether an outcome is a refusal. -/
def refused : StepResult → Bool
  | .refused _ => true
  | _ => false

/-- The byte a read returned. -/
def byte (r : StepResult) : Option Byte :=
  match r with
  | .next t => t.returned.head?
  | _ => none

/-- The reset chip with timer A's latch, counter and control register, and the pipeline, as given. -/
def timerAAt (latch counter : Word) (control : Byte) (pending feed : PipeWord) : State :=
  { State.reset with
    timerA := { latch := latch, counter := counter, control := control, toggle := false, output := false }
    pending := pending, feed := feed }

/-- The same for timer B. -/
def timerBAt (latch counter : Word) (control : Byte) (pending feed : PipeWord) : State :=
  { State.reset with
    timerB := { latch := latch, counter := counter, control := control, toggle := false, output := false }
    pending := pending, feed := feed }

/-- Timer A counting down to timer B in cascade mode (PROG3). -/
def cascading (pending : PipeWord) (a b : Word) : State :=
  { timerAAt 2 a 0x01 pending 0x000001 with
    timerB := { latch := 2, counter := b, control := 0x41, toggle := false, output := false } }

/-- Idle with timer A running: logical counter 0x000D (E-1, after TICK 8). -/
def idling : State :=
  { timerAAt 0x0014 0x0001 0x01 0x00000F 0x000001 with
    idle := true, idleLeft := 12, config := { idleEnable := true, idleMin := 4, causeHook := false } }

/-- The reset chip with CAUSE_HOOK true. -/
def hooked : State := { State.reset with config := { Config.default with causeHook := true } }

/-- The reset chip with one stimulus word waiting. -/
def waiting (w : StimulusWord) : State := { State.reset with stimulus := [w] }

/-! ### Well-formedness -/

/-- R69: a CAUSE mask is a subset of 0x1C; bits 0, 1, 5, 6 and 7 are each refused, 0x1C and 0x00 accepted. -/
theorem test_wellformed_cause_mask :
    Instr.wf (.cause 0x01) = false ∧ Instr.wf (.cause 0x02) = false ∧ Instr.wf (.cause 0x20) = false ∧
    Instr.wf (.cause 0x40) = false ∧ Instr.wf (.cause 0x80) = false ∧ Instr.wf (.cause 0x1D) = false ∧
    Instr.wf (.cause 0x1C) = true ∧ Instr.wf (.cause 0x00) = true := by decide

/-- The other operands are of their exact width: any byte is well formed. -/
theorem test_wellformed_bytes : Instr.wf (.wrImr 0xFF) = true ∧ Instr.wf (.inpb 0xFF) = true ∧ Instr.wf .tick = true := by decide

/-! ### Decoding: words written out from the formats R66 to R69 -/

/-- EVENT: `kind` 000 or 011, then thirteen zeros. -/
theorem test_decode_event :
    decode 0b0000000000000000#16 = some .tick ∧ decode 0b0110000000000000#16 = some .reset := by decide

/-- RD: 001, zero, rs, eight zeros; rs in the order of R15. -/
theorem test_decode_reads :
    decode 0b0010000000000000#16 = some .rdPra ∧ decode 0b0010000100000000#16 = some .rdPrb ∧
    decode 0b0010001000000000#16 = some .rdDdra ∧ decode 0b0010001100000000#16 = some .rdDdrb ∧
    decode 0b0010010000000000#16 = some .rdTalo ∧ decode 0b0010010100000000#16 = some .rdTahi ∧
    decode 0b0010011000000000#16 = some .rdTblo ∧ decode 0b0010011100000000#16 = some .rdTbhi ∧
    decode 0b0010100000000000#16 = some .rdTod10 ∧ decode 0b0010100100000000#16 = some .rdTodsec ∧
    decode 0b0010101000000000#16 = some .rdTodmin ∧ decode 0b0010101100000000#16 = some .rdTodhr ∧
    decode 0b0010110000000000#16 = some .rdSdr ∧ decode 0b0010110100000000#16 = some .rdIcr ∧
    decode 0b0010111000000000#16 = some .rdCra ∧ decode 0b0010111100000000#16 = some .rdCrb := by decide

/-- WR: 010, zero, rs, db. -/
theorem test_decode_writes :
    decode 0b0100000010100101#16 = some (.wrPra 0xA5) ∧ decode 0b0100000101010101#16 = some (.wrPrb 0x55) ∧
    decode 0b0100001011110000#16 = some (.wrDdra 0xF0) ∧ decode 0b0100001100001111#16 = some (.wrDdrb 0x0F) ∧
    decode 0b0100010000001001#16 = some (.wrTalo 0x09) ∧ decode 0b0100010100000001#16 = some (.wrTahi 0x01) ∧
    decode 0b0100011000000010#16 = some (.wrTblo 0x02) ∧ decode 0b0100011110000000#16 = some (.wrTbhi 0x80) ∧
    decode 0b0100100000000111#16 = some (.wrTod10 0x07) ∧ decode 0b0100100101011001#16 = some (.wrTodsec 0x59) ∧
    decode 0b0100101000110000#16 = some (.wrTodmin 0x30) ∧ decode 0b0100101110010010#16 = some (.wrTodhr 0x92) ∧
    decode 0b0100110011111111#16 = some (.wrSdr 0xFF) ∧ decode 0b0100110110000001#16 = some (.wrImr 0x81) ∧
    decode 0b0100111000000111#16 = some (.wrCra 0x07) ∧ decode 0b0100111101000001#16 = some (.wrCrb 0x41) := by decide

/-- IN8 (100, 101), IN1 (110) and INC (111). -/
theorem test_decode_inputs :
    decode 0b1000000000111100#16 = some (.inpa 0x3C) ∧ decode 0b1010000010100111#16 = some (.inpb 0xA7) ∧
    decode 0b1100000000000000#16 = some (.gate false) ∧ decode 0b1100000000000001#16 = some (.gate true) ∧
    decode 0b1110000000010000#16 = some (.cause 0x10) ∧ decode 0b1110000000001100#16 = some (.cause 0x0C) := by decide

/-- R76: a nonzero bit in each must-be-zero field is refused. -/
theorem test_decode_reserved :
    decode 0x0001#16 = none ∧ decode 0x1000#16 = none ∧ decode 0x6001#16 = none ∧ decode 0x2D01#16 = none ∧
    decode 0x3000#16 = none ∧ decode 0x5000#16 = none ∧ decode 0x8100#16 = none ∧ decode 0xB000#16 = none ∧
    decode 0xC002#16 = none ∧ decode 0xE001#16 = none ∧ decode 0xE020#16 = none := by decide

/-- The opcode table's numbering is the word itself; a longer number spells no operation. -/
theorem test_decodeTableWord :
    decodeTableWord 16 0x4D81 = some (.wrImr 0x81) ∧ decodeTableWord 16 0x2D01 = none ∧ decodeTableWord 32 0x14D81 = none := by
  decide

/-- Encoding writes the words of the spec's programs. -/
theorem test_encode :
    encode (.wrCra 0x07) = 0x4E07#16 ∧ encode .rdIcr = 0x2D00#16 ∧ encode (.inpb 0xA7) = 0xA0A7#16 ∧
    encode (.gate true) = 0xC001#16 ∧ encode (.cause 0x10) = 0xE010#16 ∧ encode .reset = 0x6000#16 := by decide

/-- R79: `R ICR` and `W IMR,$81` share address 13; `R IMR` and `W ICR` are not accepted. -/
theorem test_register_names :
    assembleRead "ICR" = some .rdIcr ∧ assembleWrite "IMR" 0x81 = some (.wrImr 0x81) ∧ assembleRead "IMR" = none ∧
    assembleWrite "ICR" 0x81 = none := by decide

/-- R80: LDTA $0009, ACK and IRQON $01 of PROG1, IRQOFF $04. -/
theorem test_pseudo_operations :
    (Pseudo.loadTimer .a 0x0009).expand = [.wrTalo 0x09, .wrTahi 0x00] ∧ Pseudo.ack.expand = [.rdIcr] ∧
    (Pseudo.irqOn 0x01).expand = [.wrImr 0x81] ∧ (Pseudo.irqOff 0x04).expand = [.wrImr 0x04] ∧
    (Pseudo.ticks 2).expand = [.tick, .tick] := by decide

/-- R47: only the low four address bits reach the core. -/
theorem test_bus_address : byte (memRead 0xDC02 { State.reset with ddra := 0xF0 }) = some 0xF0 := by decide

/-- The fetch word is the next step's operation (R57); a CAUSE word comes with the hook. -/
theorem test_withFetchWord :
    byte (step (State.reset.withFetchWord 16 0x2400)) = some 0xFF ∧
    next (step (State.reset.withFetchWord 16 0xE010)) (fun t => t.icr == 0x10#5) = true := by decide

/-- R76: a reserved word is refused; R208: with no word the chip waits. -/
theorem test_step_edges : refused (step (waiting 0x2001)) = true ∧ next (step State.reset) (fun t => t == State.reset) = true := by
  decide

/-! ### The Delay Pipeline -/

/-- R82: the shift mask has every bit at stage 1 or more and no other. -/
theorem test_shift_mask : shiftMask =
    PipeBit.mask .countA1 ||| PipeBit.mask .countA2 ||| PipeBit.mask .countA3 ||| PipeBit.mask .countB1 ||| PipeBit.mask .countB2 |||
    PipeBit.mask .countB3 ||| PipeBit.mask .loadA1 ||| PipeBit.mask .loadB1 ||| PipeBit.mask .pb6Low1 ||| PipeBit.mask .pb7Low1 |||
    PipeBit.mask .int1 ||| PipeBit.mask .pcHigh1 := by decide

/-- `Steady` on the pairs listed after DP-17. -/
theorem test_steady :
    steady 0x00000F 0x000001 = true ∧ steady 0x0000FF 0x000011 = true ∧ steady 0x040000 0x040000 = true ∧ steady 0 0 = true ∧
    steady 0x000007 0x000001 = false ∧ steady 0x00020F 0x000001 = false ∧ steady 0x00000C 0 = false ∧
    steady 0x040000 0 = false := by decide

/-! ### TICK and RESET -/

/-- DP-2, DP-3, DP-6, DP-9, DP-11, DP-12, DP-14, DP-15 and DP-17: the event of the TICK and pending after it. -/
theorem test_tick_active :
    next (execTick (timerAAt 5 0xFFFF 0 0x000200 0)) (fun t => t.timerA.counter == 5 && t.pending == 0) = true ∧
    next (execTick (timerAAt 9 9 1 0x000003 1)) (fun t => t.pending == 0x000007 && t.timerA.counter == 9) = true ∧
    next (execTick (timerAAt 9 7 0 0x00000C 0)) (fun t => t.pending == 0x000008 && t.timerA.counter == 6) = true ∧
    next (execTick (timerAAt 9 9 0 0x020000 0)) (fun t => t.irq && t.pending == 0) = true ∧
    next (execTick { timerAAt 9 9 0 0x300000 0 with pcLine := false }) (fun t => t.pcLine && t.pending == 0x200000) = true ∧
    next (execTick (timerAAt 9 9 0 0x040000 0)) (fun t => t.pending == 0) = true ∧
    next (execTick (timerAAt 9 1 1 0x00000F 1))
      (fun t => t.pending == 0x00020F && t.icr == 1 && t.timerA.counter == 0 && t.timerA.toggle) = true ∧
    next (execTick (cascading 0x00000F 1 2)) (fun t => t.pending == 0x00024F) = true ∧
    next (execTick (cascading 0x00008F 2 2)) (fun t => t.pending == 0x00000F && t.timerA.counter == 1 && t.timerB.counter == 1) = true := by
  decide

/-- E-1: TICK 1 enters Idle, TICK 9 counts down, TICK 20 wakes. -/
theorem test_tick_idle :
    next (execTick { timerAAt 0x14 0x14 1 0x000007 1 with config := { idleEnable := true, idleMin := 4, causeHook := false } })
      (fun t => t.idle && t.idleLeft == 19 && t.timerA.counter == 1 && t.pending == 0x00000F) = true ∧
    next (execTick idling) (fun t => t.idle && t.idleLeft == 11 && t.timerA.counter == 1) = true ∧
    next (execTick { idling with idleLeft := 1 }) (fun t => !t.idle && t.idleLeft == 0 && t.timerA.counter == 1) = true := by decide

/-- Z-1: RESET in mid flight; the inputs are not touched. -/
theorem test_reset : next (execReset
    { timerAAt 2 2 0x0E 0x040000 0x040000 with icr := 1, imr := 0x1F, irq := true, pra := 0xAA, ddra := 0xFF, paExt := 0x0F, gate := false })
      (fun t => t == { State.reset with paExt := 0x0F, gate := false }) = true := by decide

/-! ### The Port Unit -/

/-- 2.2: `R PRA` with PRA A5, DDRA F0, PA_ext 3C gives $2C; with DDRA FF an output pin pulled low reads 0: $24. -/
theorem test_rdPra :
    byte (execRdPra { State.reset with pra := 0xA5, ddra := 0xF0, paExt := 0x3C }) = some 0x2C ∧
    byte (execRdPra { State.reset with pra := 0xA5, ddra := 0xFF, paExt := 0x3C }) = some 0x24 := by decide

/-- 2.2: `W PRA,$A5` with DDRA 00 leaves PA_out FF. -/
theorem test_wrPra : next (execWrPra 0xA5 State.reset) (fun t => t.pra == 0xA5 && paOut t == 0xFF) = true := by decide

/-- 2.2: `W DDRA,$F0` with PRA A5 gives PA_out AF, and `R DDRA` gives $F0. -/
theorem test_ddra :
    next (execWrDdra 0xF0 { State.reset with pra := 0xA5 }) (fun t => paOut t == 0xAF && byte (execRdDdra t) == some 0xF0) = true := by
  decide

/-- PROG4: `R PRB` with PRB 55, DDRB 0F, PB_ext A7 gives $A5, lowers the line and schedules its return. -/
theorem test_rdPrb :
    next (execRdPrb { State.reset with prb := 0x55, ddrb := 0x0F, pbExt := 0xA7 })
      (fun t => t.returned.head? == some 0xA5 && !t.pcLine && t.pending == 0x100000) = true := by decide

/-- PROG4 (X10): the second access finds the line low and merges: pending 300000. -/
theorem test_rdPrb_merges :
    next (execRdPrb { State.reset with prb := 0x55, ddrb := 0xFF, pcLine := false, pending := 0x200000 })
      (fun t => t.returned.head? == some 0x55 && !t.pcLine && t.pending == 0x300000) = true := by decide

/-- PROG4: `W PRB,$55` with DDRB FF. -/
theorem test_wrPrb :
    next (execWrPrb 0x55 { State.reset with ddrb := 0xFF })
      (fun t => pbOut t == 0x55 && !t.pcLine && t.pending == 0x100000) = true := by decide

/-- 2.2: with both timers owning their pins (A high, B low), `W DDRB,$00` gives PB_out 7F; `R DDRB` gives $00. -/
theorem test_ddrb :
    next (execWrDdrb 0x00
      { timerAAt 9 9 0x07 3 1 with
        ddrb := 0xFF, timerA := { latch := 9, counter := 9, control := 0x07, toggle := true, output := true }
        timerB := { latch := 9, counter := 9, control := 0x06, toggle := false, output := false } })
      (fun t => pbOut t == 0x7F && byte (execRdDdrb t) == some 0x00) = true := by decide

/-- R111, R112, R130: the inputs. -/
theorem test_inputs :
    next (execInpa 0x3C State.reset) (fun t => t == { State.reset with paExt := 0x3C }) = true ∧
    next (execInpb 0xA7 State.reset) (fun t => t == { State.reset with pbExt := 0xA7 }) = true ∧
    next (execGate false State.reset) (fun t => t == { State.reset with gate := false }) = true := by decide

/-! ### The Timer Unit -/

/-- T-1 and E-1: counter reads; while Idle they give the logical counter and leave Idle mode. -/
theorem test_counter_reads :
    byte (execRdTalo (timerAAt 0xFF34 0xFF34 0 0 0)) = some 0x34 ∧ byte (execRdTahi (timerAAt 0xFF34 0xFF34 0 0 0)) = some 0xFF ∧
    byte (execRdTblo (timerBAt 0xFF34 0xFF34 0 0 0)) = some 0x34 ∧ byte (execRdTbhi (timerBAt 0xFF34 0xFF34 0 0 0)) = some 0xFF ∧
    next (execRdTalo idling) (fun t => t.returned.head? == some 0x0D && t.idle && t.timerA.counter == 1) = true := by decide

/-- T-1: `W TALO,$34` gives latA FF34 and schedules nothing; the same for timer B. -/
theorem test_latch_low :
    next (execWrTalo 0x34 State.reset) (fun t => t.timerA.latch == 0xFF34 && t.pending == 0 && t.timerA.counter == 0xFFFF) = true ∧
    next (execWrTblo 0x34 State.reset) (fun t => t.timerB.latch == 0xFF34 && t.pending == 0 && t.timerB.counter == 0xFFFF) = true := by
  decide

/-- T-2: `W TAHI,$01` while running gives latA 0105 and leaves pending; §0: stopped, it schedules LoadA0. -/
theorem test_wrTahi :
    next (execWrTahi 0x01 (timerAAt 5 4 1 0x00000F 1)) (fun t => t.timerA.latch == 0x0105 && t.pending == 0x00000F) = true ∧
    next (execWrTahi 0x00 State.reset) (fun t => t.timerA.latch == 0x00FF && t.pending == 0x000100) = true := by decide

/-- PROG3: `W TBHI` with LoadA0 scheduled gives pending 000500. -/
theorem test_wrTbhi :
    next (execWrTbhi 0x00 (timerAAt 2 2 0 0x000100 0)) (fun t => t.timerB.latch == 0x00FF && t.pending == 0x000500) = true := by decide

/-! ### The Control and Interrupt Unit -/

/-- CR-1: `W CRA` from reset; CR-2: a start edge sets and never flips the toggle bit, pulse mode drives the pin low (PB_out BF). -/
theorem test_wrCra :
    next (execWrCra 0x07 State.reset) (fun t => t.timerA.control == 0x07 && t.pending == 0x000003 && t.feed == 0x000001 &&
      t.timerA.toggle && t.timerA.output && pbOut t == 0xFF) = true ∧
    next (execWrCra 0xFF State.reset) (fun t => t.timerA.control == 0xEF && t.pending == 0x040100 && t.feed == 0x040000 &&
      t.timerA.toggle && t.timerA.output) = true ∧
    next (execWrCra 0x21 State.reset) (fun t => t.timerA.control == 0x21 && t.pending == 0 && t.feed == 0) = true ∧
    next (execWrCra 0x07 { timerAAt 9 9 0x06 0 0 with timerA := { latch := 9, counter := 9, control := 0x06, toggle := true, output := true } })
      (fun t => t.timerA.toggle && t.timerA.output) = true ∧
    next (execWrCra 0x03 { timerAAt 9 9 0x07 3 1 with timerA := { latch := 9, counter := 9, control := 0x07, toggle := true, output := true } })
      (fun t => t.timerA.toggle && !t.timerA.output && pbOut t == 0xBF) = true := by decide

/-- T-3, T-4, T-5: stopping leaves stages 2 and 3 to drain, a restart keeps what drains, a forced load is added. -/
theorem test_wrCra_running :
    next (execWrCra 0x00 (timerAAt 9 7 1 0x00000F 1)) (fun t => t.pending == 0x00000C && t.feed == 0) = true ∧
    next (execWrCra 0x01 (timerAAt 9 6 0 0x000008 0)) (fun t => t.pending == 0x00000B && t.feed == 0x000001) = true ∧
    next (execWrCra 0x11 (timerAAt 9 6 1 0x00000F 1)) (fun t => t.timerA.control == 0x01 && t.pending == 0x00010F) = true := by decide

/-- CR-1: `W CRB` from reset. -/
theorem test_wrCrb :
    next (execWrCrb 0x11 State.reset) (fun t => t.timerB.control == 0x01 && t.pending == 0x000430 && t.feed == 0x000010) = true ∧
    next (execWrCrb 0x41 State.reset) (fun t => t.timerB.control == 0x41 && t.pending == 0 && t.feed == 0) = true ∧
    next (execWrCrb 0xFF State.reset) (fun t => t.timerB.control == 0xEF && t.pending == 0x080400 && t.feed == 0x080000 &&
      t.timerB.toggle && t.timerB.output) = true := by decide

/-- CR-1: `R CRA` after `W CRA,$FF` gives $EF; `R CRB` the same. -/
theorem test_control_reads :
    byte (execRdCra (timerAAt 9 9 0xEF 0 0)) = some 0xEF ∧ byte (execRdCrb (timerBAt 9 9 0xEF 0 0)) = some 0xEF := by decide

/-- X4: with the line asserted `R ICR` gives $83; before the assertion it gives $03 and removes Int1 only. -/
theorem test_rdIcr :
    next (execRdIcr { timerAAt 1 1 1 0x0000FF 0x11 with icr := 3, imr := 3, irq := true })
      (fun t => t.returned.head? == some 0x83 && t.icr == 0 && !t.irq && t.pending == 0x0000FF) = true ∧
    next (execRdIcr { timerAAt 1 0 1 0x020AFF 0x11 with icr := 3, imr := 3 })
      (fun t => t.returned.head? == some 0x03 && t.icr == 0 && !t.irq && t.pending == 0x000AFF) = true := by decide

/-- X5: the mask arithmetic. -/
theorem test_wrImr_mask :
    next (execWrImr 0x9F State.reset) (fun t => t.imr == 0x1F) = true ∧
    next (execWrImr 0x0A { State.reset with imr := 0x1F }) (fun t => t.imr == 0x15) = true ∧
    next (execWrImr 0xE1 { State.reset with imr := 0x15 }) (fun t => t.imr == 0x15) = true ∧
    next (execWrImr 0x7F { State.reset with imr := 0x15 }) (fun t => t.imr == 0x00) = true := by decide

/-- X5: `W IMR,$81` with the cause latched schedules Int0; I-3: a clearing write leaves a low line low. -/
theorem test_wrImr_schedules :
    next (execWrImr 0x81 { timerAAt 1 1 8 0x040000 0x040000 with icr := 1 }) (fun t => t.pending == 0x050000 && !t.irq) = true ∧
    next (execWrImr 0x04 { State.reset with icr := 4, imr := 4, irq := true }) (fun t => t.imr == 0 && t.irq && t.pending == 0) = true := by
  decide

/-- R152 to R161: the TOD registers store a byte, SDR reads 0. -/
theorem test_tod_and_sdr :
    next (execWrTod10 0x07 State.reset) (fun t => byte (execRdTod10 t) == some 0x07) = true ∧
    next (execWrTodsec 0x59 State.reset) (fun t => byte (execRdTodsec t) == some 0x59) = true ∧
    next (execWrTodmin 0x30 State.reset) (fun t => byte (execRdTodmin t) == some 0x30) = true ∧
    next (execWrTodhr 0x92 State.reset) (fun t => byte (execRdTodhr t) == some 0x92) = true ∧
    next (execWrSdr 0xFF State.reset) (fun t => byte (execRdSdr t) == some 0x00) = true := by decide

/-- I-1, I-4: CAUSE with the hook; R162: without it the operation is refused. -/
theorem test_cause :
    next (execCause 0x10 { hooked with imr := 0x10 }) (fun t => t.icr == 0x10 && t.pending == 0x010000) = true ∧
    next (execCause 0x10 { hooked with imr := 0x10, icr := 0x08 }) (fun t => t.icr == 0x18 && t.pending == 0x010000) = true ∧
    next (execCause 0x08 hooked) (fun t => t.icr == 0x08 && t.pending == 0) = true ∧
    refused (execCause 0x10 State.reset) = true := by decide

/-! ### Witnesses: the hypotheses of the statements can be met -/

/-- Timer A running with counter `n`, interrupt enabled. -/
def runningA (n : Word) : State := { timerAAt 3 n 0x01 0x00000F 0x000001 with imr := 0x01 }

/-- Timer A right after an underflow with latch `l`. -/
def reloadingA (l : Word) : State := timerAAt l 0 0x01 0x00020F 0x000001

/-- One-shot timer A one clock before its underflow. -/
def oneShotA : State := timerAAt 3 1 0x09 0x04000F 0x040001

theorem running_inv : (runningA 5).Inv := by
  constructor <;> first | decide | (constructor <;> decide)

theorem reloading_inv : (reloadingA 0xFFFF).Inv ∧ (reloadingA 0).Inv := by
  constructor <;> (constructor <;> first | decide | (constructor <;> decide))

theorem stopped_inv : (timerAAt 0xFFFF 0xFFFF 0 0 0).Inv ∧ (timerAAt 0 0 0 0 0).Inv := by
  constructor <;> (constructor <;> first | decide | (constructor <;> decide))

theorem idling_inv : idling.Inv := by
  constructor <;> first | decide | (constructor <;> decide)

theorem cascading_inv : (cascading 0x00000F 1 1).Inv := by
  constructor <;> first | decide | (constructor <;> decide)

theorem witness_DecodeOfEncodeIsTheOperation : Instr.wf (.cause 0x1C) = true ∧ Instr.wf (.wrCrb 0xFF) = true := by decide

theorem witness_EncodeOfDecodeIsTheWord : decode 0x4FFF#16 = some (.wrCrb 0xFF) ∧ decode 0xE01C#16 = some (.cause 0x1C) := by decide

theorem witness_WordSpellsTheRowItMatches :
    decode 0xC001#16 = some (.gate true) ∧ (opcodeRow (.gate false)).spells 0xC001#16 = true ∧
    (opcodeRow (.gate true)).spells 0xC001#16 = true ∧ decode 0x3000#16 = none := by decide

theorem witness_StepAppliesTheDecodedOperation :
    ((waiting 0x4D81).stimulus = 0x4D81#16 :: [] ∧ decode 0x4D81#16 = some (.wrImr 0x81)) ∧
    ((waiting 0x2001).stimulus = 0x2001#16 :: [] ∧ decode 0x2001#16 = none) ∧ State.reset.stimulus = [] := by decide

theorem witness_ReadPortB_and_WritePortB : hasBit State.reset.pending .pcHigh1 = false := by decide

theorem witness_PortBAccessesMergeTheirPulses : hasBit (timerAAt 9 9 0 0x200000 0).pending .pcHigh1 = true := by decide

theorem witness_LowHandshakeLineIsOnItsWayUp : ∃ t, step (waiting 0x2100) = .next t ∧ t.pcLine = false ∧
    ((waiting 0x2100).pcLine = false → hasBit (waiting 0x2100).pending .pcHigh0 = true ∨ hasBit (waiting 0x2100).pending .pcHigh1 = true) :=
  ⟨_, rfl, by decide, by decide⟩

theorem witness_ScheduledLoadHappensInTheNextClock :
    (State.reset.timer .b).control.getLsbD 0 = false ∧ (0x10#8).getLsbD 4 = true ∧ (0xFF#8).getLsbD 4 = true := by decide

theorem witness_CounterReadsReturnTheLogicalCounter : State.reset.idle = false ∧ idling.idle = true := by decide

theorem witness_AbsorbKeepsTheLogicalCounters : State.reset.idle = false := by decide

theorem witness_ActiveTickLoadsOrDecrements : (runningA 5).idle = false ∧ (reloadingA 3).idle = false := by decide

/-- Both halves: an underflow in pulse mode, with the counter at the wrap's end, and a clock without one. -/
theorem witness_UnderflowActionsOfATick :
    (∃ s : State, s.idle = false ∧ s.feed &&& ~~~feedBits = 0#32 ∧ nextCounter .a s = 0#16 ∧ hasBit s.pending .countA2 = true ∧
      s.timerA.control.getLsbD 1 = true ∧ s.timerA.control.getLsbD 2 = false) ∧
    (∃ s : State, s.idle = false ∧ s.feed &&& ~~~feedBits = 0#32 ∧ ¬(nextCounter .a s = 0#16 ∧ hasBit s.pending .countA2 = true)) :=
  ⟨⟨timerAAt 3 1 0x03 0x00000F 1, by decide⟩, ⟨runningA 2, by decide⟩⟩

theorem witness_OneShotUnderflowStopsTheTimer :
    (oneShotA.feed &&& ~~~feedBits = 0#32 ∧ underflowDue .a oneShotA = true ∧ hasBit oneShotA.pending .oneShotA0 = true) ∧
    ((runningA 1).feed &&& ~~~feedBits = 0#32 ∧ underflowDue .a (runningA 1) = true ∧
      (hasBit (runningA 1).pending .oneShotA0 || hasBit (runningA 1).feed .oneShotA0) = false) := by decide

theorem witness_CascadePulseReachesTimerB :
    (cascading 0x00000F 1 1).idle = false ∧ (cascading 0x00000F 1 1).feed &&& ~~~feedBits = 0#32 := by decide

theorem witness_OneUnderflowOfAGivesOneDecrementOfB : ∃ s : State, s.Inv ∧ underflowDue .a s = true ∧ cascadeEnabled s = true ∧
    chainEmpty .b s = true ∧ s.timerB.counter ≠ 0#16 ∧
    (∀ m, 1 ≤ m → m + 3 ≤ 5 → underflowDue .a (ticks m s) = false) :=
  ⟨cascading 0x00000F 1 1, cascading_inv, by decide, by decide, by decide, by decide, fun m h₁ h₂ => by
    obtain rfl | rfl : m = 1 ∨ m = 2 := by omega
    all_goals decide⟩

/-- The latches 0xFFFF and 0, the ends of the range. -/
theorem witness_FirstUnderflowComesAtLatchPlusOne :
    (∃ s : State, s.Inv ∧ running .a s = false ∧ chainEmpty .a s = true ∧ s.timerA.latch.toNat = 65535 ∧
      (logicalCounter .a s).toNat = 65535 ∧ countsSystemClock .a 0x01 = true ∧ (0x01#8).getLsbD 3 = false) ∧
    (∃ s : State, s.Inv ∧ running .a s = false ∧ chainEmpty .a s = true ∧ s.timerA.latch.toNat = 0 ∧
      (logicalCounter .a s).toNat = 0 ∧ countsSystemClock .a 0x01 = true ∧ (0x01#8).getLsbD 3 = false) :=
  ⟨⟨timerAAt 0xFFFF 0xFFFF 0 0 0, stopped_inv.1, by decide⟩, ⟨timerAAt 0 0 0 0 0, stopped_inv.2, by decide⟩⟩

theorem witness_PeriodIsLatchPlusOne :
    (∃ s : State, s.Inv ∧ justUnderflowed .a s = true ∧ s.timerA.latch.toNat = 65535) ∧
    (∃ s : State, s.Inv ∧ justUnderflowed .a s = true ∧ s.timerA.latch.toNat = 0) :=
  ⟨⟨reloadingA 0xFFFF, reloading_inv.1, by decide⟩, ⟨reloadingA 0, reloading_inv.2, by decide⟩⟩

theorem witness_OneShotTimerUnderflowsOnceAndStands :
    (∃ s : State, s.Inv ∧ running .a s = false ∧ chainEmpty .a s = true ∧ s.timerA.latch.toNat = 65535 ∧
      (logicalCounter .a s).toNat = 65535 ∧ countsSystemClock .a 0x09 = true ∧ (0x09#8).getLsbD 3 = true) ∧
    (∃ s : State, s.Inv ∧ running .a s = false ∧ chainEmpty .a s = true ∧ s.timerA.latch.toNat = 0 ∧
      (logicalCounter .a s).toNat = 0 ∧ countsSystemClock .a 0x09 = true ∧ (0x09#8).getLsbD 3 = true) :=
  ⟨⟨timerAAt 0xFFFF 0xFFFF 0 0 0, stopped_inv.1, by decide⟩, ⟨timerAAt 0 0 0 0 0, stopped_inv.2, by decide⟩⟩

theorem witness_StoppedTimerDrainsTwoDecrements :
    ∃ s : State, s.Inv ∧ chainFull .a s = true ∧ hasBit s.pending .loadA0 = false ∧ hasBit s.pending .loadA1 = false ∧
      2 ≤ (logicalCounter .a s).toNat ∧ (0x00#8).getLsbD 0 = false ∧ (0x00#8).getLsbD 4 = false :=
  ⟨runningA 5, running_inv, by decide⟩

theorem witness_CauseRaisesExternalCauses : hooked.config.causeHook = true ∧ State.reset.config.causeHook = false := by decide

theorem witness_MaskWriteOrCauseAssertsOneClockLater : ∃ t, exec (.cause 0x10) { hooked with imr := 0x10 } = .next t ∧
    t.icr &&& t.imr ≠ 0#5 ∧ (0x10#8 &&& 0x1C#8 ≠ 0#8 ∧ hooked.config.causeHook = true) ∧ hooked.irq = false ∧
    hasBit hooked.pending .int1 = false :=
  ⟨_, rfl, by decide⟩

theorem witness_UnderflowAssertsOneClockLater : underflowDue .a (runningA 1) = true ∧
    (runningA 1).imr.getLsbD TimerId.a.cause.code = true ∧ (runningA 1).irq = false ∧ hasBit (runningA 1).pending .int1 = false := by
  decide

theorem witness_AcknowledgeCancelsAnAssertionInFlight :
    (∃ t, exec .rdIcr (timerAAt 9 9 0 0x010000 0) = .next t ∧ (timerAAt 9 9 0 0x010000 0).irq = false ∧
      hasBit (timerAAt 9 9 0 0x010000 0).pending .int0 = true ∧ (timerAAt 9 9 0 0x010000 0).feed &&& ~~~feedBits = 0#32 ∧
      ∀ x : TimerId, underflowDue x t = false) ∧
    ((timerAAt 9 9 0 0x020000 0).irq = false ∧ hasBit (timerAAt 9 9 0 0x020000 0).pending .int1 = true) ∧
    underflowDue .a (runningA 1) = true :=
  ⟨⟨_, rfl, by decide, by decide, by decide, fun x => by cases x <;> decide⟩, by decide, by decide⟩

theorem witness_LineIsAssertedByInt1Only :
    ∃ t, exec .tick (timerAAt 9 9 0 0x020000 0) = .next t ∧ t.irq = true ∧ (timerAAt 9 9 0 0x020000 0).irq = false ∧
      (timerAAt 9 9 0 0x020000 0).idle = false ∧ hasBit (timerAAt 9 9 0 0x020000 0).pending .int1 = true :=
  ⟨_, rfl, by decide⟩

theorem witness_LineIsReleasedByAcknowledgeOrResetOnly :
    ∃ t, exec .rdIcr { State.reset with irq := true, icr := 1 } = .next t ∧ t.irq = false := ⟨_, rfl, by decide⟩

theorem witness_CausesAreSticky : (∃ t, exec .tick (runningA 1) = .next t ∧ Instr.tick ≠ .rdIcr ∧ Instr.tick ≠ .reset) ∧
    (∃ u, exec .tick { runningA 1 with imr := 0 } = .next u) := ⟨⟨_, rfl, by decide⟩, ⟨_, rfl⟩⟩

/-- Cause 0 by a TICK, causes 2 and 4 by CAUSE. -/
theorem witness_CausesHaveTheirOwnSources :
    (∃ t, exec .tick (runningA 1) = .next t ∧ (runningA 1).icr.getLsbD 0 = false ∧ t.icr.getLsbD 0 = true) ∧
    (∃ t, exec .tick (timerBAt 3 1 0x01 0x0000F0 0x10) = .next t ∧ t.icr.getLsbD 1 = true) ∧
    (∃ t, exec (.cause 0x14) hooked = .next t ∧ t.icr.getLsbD 2 = true ∧ t.icr.getLsbD 4 = true) :=
  ⟨⟨_, rfl, by decide⟩, ⟨_, rfl, by decide⟩, ⟨_, rfl, by decide⟩⟩

theorem witness_EnabledCauseReachesTheLine :
    ∃ t, step { runningA 1 with stimulus := [0x0000] } = .next t ∧ enabledCauses t ≠ 0#5 ∧
      enabledCauses { runningA 1 with stimulus := [0x0000] } = 0#5 := ⟨_, rfl, by decide, by decide⟩

theorem witness_OnlyTwoReadsHaveSideEffects : (0#4 : RegSelect) ≠ 1#4 ∧ (0#4 : RegSelect) ≠ 13#4 ∧ (15#4 : RegSelect) ≠ 13#4 := by
  decide

theorem witness_RepeatedWritesActEveryTime : (0x10#8).getLsbD 4 = true ∧ running .a State.reset = false ∧
    (∃ t, exec (.wrImr 0x81) { State.reset with icr := 1 } = .next t ∧ t.icr &&& t.imr ≠ 0#5 ∧ State.reset.irq = false) ∧
    Instr.wrTodhr 0 ∈ [Instr.wrPra 0, .wrDdra 0, .wrDdrb 0, .wrTalo 0, .wrTblo 0, .wrTod10 0, .wrTodsec 0, .wrTodmin 0, .wrTodhr 0] :=
  ⟨by decide, by decide, ⟨_, rfl, by decide⟩, by decide⟩

/-- Each register is changed by some operation. -/
theorem witness_RegistersChangeByTheirOwnWritesOnly :
    (∃ t, exec (.wrPra 1) State.reset = .next t ∧ t.pra ≠ State.reset.pra) ∧
    (∃ t, exec (.wrPrb 1) State.reset = .next t ∧ t.prb ≠ State.reset.prb) ∧
    (∃ t, exec (.wrDdra 1) State.reset = .next t ∧ t.ddra ≠ State.reset.ddra) ∧
    (∃ t, exec (.wrDdrb 1) State.reset = .next t ∧ t.ddrb ≠ State.reset.ddrb) ∧
    (∃ t, exec (.wrTod10 1) State.reset = .next t ∧ t.tod10 ≠ State.reset.tod10) ∧
    (∃ t, exec (.wrTodsec 1) State.reset = .next t ∧ t.todSec ≠ State.reset.todSec) ∧
    (∃ t, exec (.wrTodmin 1) State.reset = .next t ∧ t.todMin ≠ State.reset.todMin) ∧
    (∃ t, exec (.wrTodhr 1) State.reset = .next t ∧ t.todHr ≠ State.reset.todHr) ∧
    (∃ t, exec (.wrImr 0x81) State.reset = .next t ∧ t.imr ≠ State.reset.imr) ∧
    (∃ t, exec (.wrTalo 0) State.reset = .next t ∧ (t.timer .a).latch ≠ (State.reset.timer .a).latch) ∧
    (∃ t, exec (.inpa 0) State.reset = .next t ∧ t.paExt ≠ State.reset.paExt) ∧
    (∃ t, exec (.inpb 0) State.reset = .next t ∧ t.pbExt ≠ State.reset.pbExt) ∧
    (∃ t, exec (.gate false) State.reset = .next t ∧ t.gate ≠ State.reset.gate) :=
  ⟨⟨_, rfl, by decide⟩, ⟨_, rfl, by decide⟩, ⟨_, rfl, by decide⟩, ⟨_, rfl, by decide⟩, ⟨_, rfl, by decide⟩, ⟨_, rfl, by decide⟩,
   ⟨_, rfl, by decide⟩, ⟨_, rfl, by decide⟩, ⟨_, rfl, by decide⟩, ⟨_, rfl, by decide⟩, ⟨_, rfl, by decide⟩, ⟨_, rfl, by decide⟩,
   ⟨_, rfl, by decide⟩⟩

theorem witness_PipelineChangesByItsOwnOperationsOnly :
    (∃ t, exec (.wrCra 0x01) State.reset = .next t ∧ t.pending ≠ State.reset.pending ∧ t.feed ≠ State.reset.feed) ∧
    (∃ t, exec .rdPrb State.reset = .next t ∧ t.pending ≠ State.reset.pending) := ⟨⟨_, rfl, by decide⟩, ⟨_, rfl, by decide⟩⟩

theorem witness_TimerStartsAndStopsAsTheStateMachineSays :
    (∃ t, exec (.wrCra 0x01) State.reset = .next t ∧ timerMode .a State.reset = .stopped ∧ timerMode .a t ≠ .stopped) ∧
    (∃ t, exec .tick oneShotA = .next t ∧ timerMode .a oneShotA ≠ .stopped ∧ timerMode .a t = .stopped) ∧
    (∃ t, exec (.wrCra 0x01) oneShotA = .next t ∧ timerMode .a oneShotA ≠ .stopped ∧ timerMode .a t ≠ .stopped ∧
      timerMode .a oneShotA ≠ timerMode .a t) := ⟨⟨_, rfl, by decide⟩, ⟨_, rfl, by decide⟩, ⟨_, rfl, by decide⟩⟩

/-- Timer A in toggle mode, timer B in pulse mode. -/
theorem witness_TimerOwnedPinShowsItsMode : ∃ s : State, s.Inv ∧ s.timerA.control.getLsbD 1 = true ∧ s.timerB.control.getLsbD 1 = true := by
  refine ⟨{ timerAAt 9 9 0x06 0x008000 0 with
    timerB := { latch := 9, counter := 9, control := 0x02, toggle := true, output := true } }, ?_, by decide, by decide⟩
  constructor <;> first | decide | (constructor <;> decide)

theorem witness_IdleTickOnlyCountsDown :
    (idling.idle = true ∧ hasBit idling.pending .countA3 = true ∧ idling.idleLeft = 12) ∧
    (∃ s : State, s.idle = true ∧ hasBit s.pending .countA3 = true ∧ s.idleLeft = 1) ∧
    (∃ s : State, s.idle = true ∧ hasBit s.pending .countA3 = true ∧ s.idleLeft = 0) ∧
    (∃ s : State, s.idle = true ∧ (hasBit s.pending .countA3 || hasBit s.pending .countB3) = false) :=
  ⟨by decide, ⟨{ idling with idleLeft := 1 }, by decide⟩, ⟨{ idling with idleLeft := 0 }, by decide⟩,
   ⟨{ State.reset with idle := true }, by decide⟩⟩

theorem witness_IdleIsEnteredOnlyFromASteadyPipeline :
    ∃ t, exec .tick { runningA 5 with config := { idleEnable := true, idleMin := 1, causeHook := false } } = .next t ∧ t.idle = true ∧
      (runningA 5).idle = false := ⟨_, rfl, by decide, by decide⟩

theorem witness_IdleIsLeftOnlyByWakeUpAbsorbOrReset :
    (∃ t, exec .tick { idling with idleLeft := 1 } = .next t ∧ idling.idle = true ∧ t.idle = false) ∧
    (∃ t, exec .rdIcr idling = .next t ∧ t.idle = false) ∧
    (∃ t, exec (.wrTbhi 0) idling = .next t ∧ t.idle = false) := ⟨⟨_, rfl, by decide⟩, ⟨_, rfl, by decide⟩, ⟨_, rfl, by decide⟩⟩

theorem witness_IdleOptimizerIsTransparent : ∃ s : State, s.Inv ∧ s.idle = true ∧ s.idleLeft = 12 := ⟨idling, idling_inv, by decide⟩

theorem witness_IdleParametersAreUnobservable : ∃ c d : Config, c.wf ∧ d.wf ∧ c.causeHook = d.causeHook ∧ c.idleEnable ≠ d.idleEnable :=
  ⟨⟨true, 1, true⟩, ⟨false, 4, true⟩, by decide⟩

theorem witness_EveryStepKeepsTheInvariant : ∃ s t : State, s.Inv ∧ step s = .next t ∧ t ≠ s := by
  refine ⟨{ runningA 1 with stimulus := [0x0000] }, _, ?_, rfl, by decide⟩
  constructor <;> first | decide | (constructor <;> decide)

/-- A clock without an underflow, one with an underflow in pulse mode, one with a one-shot stop, one with a cascade. -/
theorem witness_ActiveTickMovesEveryBitOneStage :
    ((runningA 5).idle = false ∧ (runningA 5).feed &&& ~~~feedBits = 0#32 ∧ underflowDue .a (runningA 5) = false) ∧
    (∃ s : State, s.idle = false ∧ s.feed &&& ~~~feedBits = 0#32 ∧ underflowDue .a s = true ∧
      s.timerA.control.getLsbD 1 = true ∧ s.timerA.control.getLsbD 2 = false) ∧
    (oneShotA.idle = false ∧ oneShotA.feed &&& ~~~feedBits = 0#32 ∧ underflowDue .a oneShotA = true ∧ oneShotSelected .a oneShotA = true) ∧
    ((cascading 0x00000F 1 1).idle = false ∧ (cascading 0x00000F 1 1).feed &&& ~~~feedBits = 0#32 ∧
      underflowDue .a (cascading 0x00000F 1 1) = true ∧ cascadeEnabled (cascading 0x00000F 1 1) = true) :=
  ⟨by decide, ⟨timerAAt 3 1 0x03 0x00000F 1, by decide⟩, by decide, by decide⟩

end Sys2Proof.Tests
end

namespace Sys2Proof.Machine

/-! ### The register accesses of the bus (R46, R54, R64) -/

theorem readOf_ne_cause (rs : RegSelect) (c : Byte) : readOf rs ≠ .cause c := by
  unfold readOf
  split <;> nofun

theorem writeOf_ne_cause (rs : RegSelect) (db c : Byte) : writeOf rs db ≠ .cause c := by
  unfold writeOf
  split <;> nofun

/-- CAUSE is the only operation with a path that does not complete (R76, R162). -/
theorem exec_completes {i : Instr} (h : ∀ c, i ≠ .cause c) (s : State) : ∃ t, exec i s = .next t := by
  cases i
  case cause c => exact absurd rfl (h c)
  all_goals exact ⟨_, rfl⟩

theorem exec_rdSdr (s : State) : exec .rdSdr s = .next (returnByte 0x00#8 s) := rfl
theorem exec_wrSdr (v : Byte) (s : State) : exec (.wrSdr v) s = .next s := rfl
theorem exec_rdIcr (s : State) : exec .rdIcr s = .next (returnByte (icrByte s) (acknowledge (absorb s))) := rfl
theorem exec_rdPrb (s : State) : exec .rdPrb s = .next (returnByte (pbBus (absorb s)) (pulsePc (absorb s))) := rfl
theorem exec_wrPrb (v : Byte) (s : State) : exec (.wrPrb v) s = .next (pulsePc { absorb s with prb := v }) := rfl
theorem exec_wrImr (v : Byte) (s : State) :
    exec (.wrImr v) s = .next (scheduleInterrupt { absorb s with imr := maskAfterWrite (absorb s).imr v }) := rfl
theorem exec_controlWrite (x : TimerId) (v : Byte) (s : State) :
    exec (controlWrite x v) s = .next (writeControl x v s) := by cases x <;> rfl
theorem exec_latchLowWrite (x : TimerId) (v : Byte) (s : State) :
    exec (latchLowWrite x v) s = .next (writeLatchLow x v s) := by cases x <;> rfl
theorem exec_latchHighWrite (x : TimerId) (v : Byte) (s : State) :
    exec (latchHighWrite x v) s = .next (writeLatchHigh x v s) := by cases x <;> rfl

/-- Settles O9: no register access is a CAUSE, so every one completes; address 12 selects SDR. -/
theorem noBusAccessFails : Obligations.NoBusAccessFails := by
  unfold Obligations.NoBusAccessFails
  refine ⟨fun addr s => ?_, fun addr v s => ?_, fun s => ?_, fun v s => ?_⟩
  · exact exec_completes (readOf_ne_cause _) s
  · exact exec_completes (writeOf_ne_cause _ v) s
  · exact exec_rdSdr s
  · exact exec_wrSdr v s

/-! ### Reads without a side effect (R52) -/

/-- The byte a read returns, for the fourteen reads that do nothing else (R52). -/
def plainReadValue : Instr → Option (State → Byte)
  | .rdPra => some paBus
  | .rdDdra => some State.ddra
  | .rdDdrb => some State.ddrb
  | .rdTalo => some fun s => lowByte (logicalCounter .a s)
  | .rdTahi => some fun s => highByte (logicalCounter .a s)
  | .rdTblo => some fun s => lowByte (logicalCounter .b s)
  | .rdTbhi => some fun s => highByte (logicalCounter .b s)
  | .rdTod10 => some State.tod10
  | .rdTodsec => some State.todSec
  | .rdTodmin => some State.todMin
  | .rdTodhr => some State.todHr
  | .rdSdr => some fun _ => 0x00#8
  | .rdCra => some fun s => s.timerA.control
  | .rdCrb => some fun s => s.timerB.control
  | _ => none

/-- A plain read puts its byte on the bus and changes nothing else. -/
theorem exec_of_plainReadValue {i : Instr} {f : State → Byte} (h : plainReadValue i = some f) (s : State) :
    exec i s = .next (returnByte (f s) s) := by
  unfold plainReadValue at h
  split at h <;> cases h <;> rfl

/-- The byte of a plain read does not depend on the bytes returned before. -/
theorem plainReadValue_returnByte {i : Instr} {f : State → Byte} (h : plainReadValue i = some f) (r : Byte) (s : State) :
    f (returnByte r s) = f s := by
  unfold plainReadValue at h
  split at h <;> cases h <;> rfl

/-- Registers 1 (PRB) and 13 (ICR) are the only ones whose read is not plain (R52). -/
theorem plainReadValue_readOf_isSome :
    ∀ rs : RegSelect, rs ≠ 1#4 → rs ≠ 13#4 → (plainReadValue (readOf rs)).isSome = true := by decide

/-! ### The handshake pulse, `Absorb` and the outputs (R33, R107, R170) -/

@[simp] theorem pulsePc_pcLine (s : State) : (pulsePc s).pcLine = false := rfl
@[simp] theorem pulsePc_pending (s : State) : (pulsePc s).pending = setBit s.pending .pcHigh0 := rfl

/-- The outputs read no counter, so `Absorb` is unobservable on them (R176). -/
@[simp] theorem outputsOf_absorb (s : State) : outputsOf (absorb s) = outputsOf s := by
  simp [outputsOf, paOut, pbOut, pbBase, irqN, pcN]

/-- Settles O46: fourteen reads are plain; RD_ICR acknowledges an asserted line, and RD_PRB pulls the line that is high after
RESET. -/
theorem onlyTwoReadsHaveSideEffects : Obligations.OnlyTwoReadsHaveSideEffects := by
  unfold Obligations.OnlyTwoReadsHaveSideEffects
  refine ⟨fun rs s h1 h13 => ?_, fun s => ?_, fun s => ?_, ?_, ?_, fun x s => ?_⟩
  · obtain ⟨f, hf⟩ := Option.isSome_iff_exists.mp (plainReadValue_readOf_isSome rs h1 h13)
    have again := exec_of_plainReadValue hf (returnByte (f s) s)
    rw [plainReadValue_returnByte hf] at again
    exact ⟨f s, exec_of_plainReadValue hf s, again⟩
  · exact ⟨_, exec_rdIcr s, rfl, rfl, by simp, by simp⟩
  · exact ⟨_, exec_rdPrb s, rfl, by simp⟩
  · exact ⟨{ State.reset with irq := true }, _, exec_rdIcr _, by simp⟩
  · exact ⟨State.reset, _, exec_rdPrb _, by simp [State.reset]⟩
  · exact ⟨logicalCounter_absorb x s, outputsOf_absorb s⟩

/-! ### Writes that act every time they are made (R53) -/

theorem hasBit_ite (c : Prop) [Decidable c] (p q : PipeWord) (b : PipeBit) :
    hasBit (if c then p else q) b = if c then hasBit p b else hasBit q b := apply_ite (hasBit · b) c p q

/-- The load strobe is the only field of a control byte that reaches stage 0 of the load chain (R151). -/
theorem hasBit_load0_pendingAfterControl (x : TimerId) (v : Byte) (p : PipeWord) :
    hasBit (pendingAfterControl x v p) x.load0 = (hasBit p x.load0 || ctlLoad v) := by
  have otherChains : x.count0 ≠ x.load0 ∧ x.count1 ≠ x.load0 ∧ x.oneShot ≠ x.load0 ∧ x.pbLow0 ≠ x.load0 ∧
      x.pbLow1 ≠ x.load0 := by
    cases x <;> decide
  cases hl : ctlLoad v <;> simp [pendingAfterControl, hasBit_ite, otherChains, hl]

theorem hasBit_load0_writeControl (x : TimerId) (v : Byte) (s : State) :
    hasBit (writeControl x v s).pending x.load0 = (hasBit s.pending x.load0 || ctlLoad v) := by
  rw [writeControl_eq]
  exact hasBit_load0_pendingAfterControl x v s.pending

/-- The high byte of the latch of a stopped timer: `Absorb`, then the load is scheduled (R114, R116). -/
theorem writeLatchHigh_of_stopped {x : TimerId} {s : State} (h : running x s = false) (v : Byte) :
    writeLatchHigh x v s =
      schedule x.load0 (absorb (s.setTimer x { s.timer x with latch := withHighByte (s.timer x).latch v })) := by
  unfold running at h
  simp [writeLatchHigh, running, h]

@[simp] theorem scheduleInterrupt_icr (s : State) : (scheduleInterrupt s).icr = s.icr := by rw [scheduleInterrupt_eq]
@[simp] theorem scheduleInterrupt_imr (s : State) : (scheduleInterrupt s).imr = s.imr := by rw [scheduleInterrupt_eq]

theorem hasBit_int0_scheduleInterrupt {s : State} (h : s.icr &&& s.imr ≠ 0#5) (hirq : s.irq = false) :
    hasBit (scheduleInterrupt s).pending .int0 = true := by
  have due : mustSchedule s = true := (mustSchedule_iff s).mpr ⟨h, hirq⟩
  simp [scheduleInterrupt_eq, due]

/-! ### Idempotent writes (R53) -/

@[simp] theorem withLowByte_withLowByte (w : Word) (v u : Byte) : withLowByte (withLowByte w v) u = withLowByte w u := by
  rw [withLowByte, highByte_withLowByte, ← withLowByte]

theorem writeLatchLow_idem (x : TimerId) (v : Byte) (s : State) :
    writeLatchLow x v (writeLatchLow x v s) = writeLatchLow x v s := by
  simp [writeLatchLow]

theorem latchLowWrite_idempotent (x : TimerId) (v : Byte) (s : State) :
    ∃ t, exec (latchLowWrite x v) s = .next t ∧ exec (latchLowWrite x v) t = .next t :=
  ⟨writeLatchLow x v s, exec_latchLowWrite x v s, by rw [exec_latchLowWrite, writeLatchLow_idem]⟩

/-- Settles O47: each acting write schedules its event whatever was scheduled before, and each idempotent write stores its byte
over itself. -/
theorem repeatedWritesActEveryTime : Obligations.RepeatedWritesActEveryTime := by
  unfold Obligations.RepeatedWritesActEveryTime
  refine ⟨fun v s => ?_, fun x v s hload => ?_, fun x v s hstop => ?_, fun v s => ?_, fun v i s hi => ?_, exec_wrSdr⟩
  · exact ⟨_, exec_wrPrb v s, rfl, by simp⟩
  · have strobe : ctlLoad v = true := hload
    exact ⟨_, exec_controlWrite x v s, by simp [hasBit_load0_writeControl, strobe]⟩
  · exact ⟨_, exec_latchHighWrite x v s, by simp [writeLatchHigh_of_stopped hstop]⟩
  · refine ⟨_, exec_wrImr v s, fun hcause hirq => hasBit_int0_scheduleInterrupt ?_ ?_⟩
    · simpa using hcause
    · simpa using hirq
  · simp only [List.mem_cons, List.not_mem_nil, or_false] at hi
    rcases hi with rfl | rfl | rfl | rfl | rfl | rfl | rfl | rfl | rfl
    case inr.inr.inr.inl => exact latchLowWrite_idempotent .a v s
    case inr.inr.inr.inr.inl => exact latchLowWrite_idempotent .b v s
    all_goals exact ⟨_, rfl, rfl⟩

end Sys2Proof.Machine

namespace Sys2Proof.Machine

/-! ### The port accesses (R96, R98, R99) -/

/-- RD_PRA is a plain read, of the bus value and not of the latch (R52, R99). -/
theorem exec_rdPra (s : State) : exec .rdPra s = .next (returnByte (paBus s) s) :=
  exec_of_plainReadValue (i := .rdPra) rfl s

/-- Settles O10: RD_PRA puts the bus value of port A on the bus; R98 and R96 spell that value in PRA, DDRA and PA_ext. -/
theorem readPortAReturnsTheBusValue : Obligations.ReadPortAReturnsTheBusValue := by
  unfold Obligations.ReadPortAReturnsTheBusValue
  intro s
  rw [exec_rdPra, returnByte, paBus, paOut]

end Sys2Proof.Machine

namespace Sys2Proof.Machine

/-! ### The latch writes and the counter reads (R113, R115, R121 to R124) -/

/-- `v[7:0] ← b` in masks: the mask keeps the high byte, and `b` fills the byte it clears (R71). -/
theorem withLowByte_eq_mask_or (w : Word) (b : Byte) : withLowByte w b = (w &&& 0xFF00#16) ||| b.setWidth 16 := by
  have masked : w &&& 0xFF00#16 = highByte w ++ 0#8 :=
    calc w &&& 0xFF00#16
      _ = (highByte w ++ lowByte w) &&& (BitVec.allOnes 8 ++ 0#8) := by rw [highByte_append_lowByte]; rfl
      _ = highByte w ++ 0#8 := by rw [BitVec.and_append, BitVec.and_allOnes, BitVec.and_zero]
  have widened : b.setWidth 16 = 0#8 ++ b := BitVec.setWidth_eq_append (by decide)
  rw [masked, widened, BitVec.or_append, BitVec.or_zero, BitVec.zero_or, withLowByte]

/-- Settles O19: a low-byte write stores `withLowByte` of the latch and touches no other field; the mask form says which bits
that keeps. -/
theorem latchLowWritesChangeTheLowByteOnly : Obligations.LatchLowWritesChangeTheLowByteOnly := by
  unfold Obligations.LatchLowWritesChangeTheLowByteOnly
  refine ⟨fun v s => ?_, fun v s => ?_⟩
  · rw [← withLowByte_eq_mask_or]
    exact exec_latchLowWrite .a v s
  · rw [← withLowByte_eq_mask_or]
    exact exec_latchLowWrite .b v s

/-- `v[7:0]` as a number (R49). -/
theorem lowByte_eq_ofNat_mod (w : Word) : lowByte w = BitVec.ofNat 8 (w.toNat % 256) := by
  apply BitVec.eq_of_toNat_eq
  simp [lowByte]

/-- `v[15:8]` as a number (R49). -/
theorem highByte_eq_ofNat_div (w : Word) : highByte w = BitVec.ofNat 8 (w.toNat / 256) := by
  apply BitVec.eq_of_toNat_eq
  simp [highByte, Nat.shiftRight_eq_div_pow]

/-- Settles O22: the four counter reads are plain reads of a half of the logical counter, which is the stored one while the chip
is Active. -/
theorem counterReadsReturnTheLogicalCounter : Obligations.CounterReadsReturnTheLogicalCounter := by
  unfold Obligations.CounterReadsReturnTheLogicalCounter
  refine ⟨fun s => ?_, fun x _ hactive => logicalCounter_of_active x hactive⟩
  simp only [← lowByte_eq_ofNat_mod, ← highByte_eq_ofNat_div]
  exact ⟨exec_of_plainReadValue (i := .rdTalo) rfl s, exec_of_plainReadValue (i := .rdTahi) rfl s,
    exec_of_plainReadValue (i := .rdTblo) rfl s, exec_of_plainReadValue (i := .rdTbhi) rfl s⟩

end Sys2Proof.Machine

namespace Sys2Proof.Machine

/-! ### The SDR stub (R160, R161) -/

/-- Settles O18: the register has no state variable; a read puts 0 on the bus and a write stores nothing. -/
theorem sdrReadsZeroAndIgnoresWrites : Obligations.SdrReadsZeroAndIgnoresWrites := by
  unfold Obligations.SdrReadsZeroAndIgnoresWrites
  exact ⟨exec_rdSdr, exec_wrSdr⟩

/-! ### The interrupt line (R25, R144) -/

theorem exec_tick (s : State) : exec .tick s = .next (tick s) := rfl

/-- A CAUSE that completes is one with the hook, and raises its causes (R162). -/
theorem exec_cause_next {c : Byte} {s t : State} (h : exec (.cause c) s = .next t) : t = raiseExternal c s := by
  have hexec : exec (.cause c) s = execCause c s := rfl
  rw [hexec, execCause] at h
  split at h
  · exact (Host.Outcome.next.inj h).symm
  · cases h

@[simp] theorem pulsePc_irq (s : State) : (pulsePc s).irq = s.irq := rfl
@[simp] theorem scheduleInterrupt_irq (s : State) : (scheduleInterrupt s).irq = s.irq := by rw [scheduleInterrupt_eq]
@[simp] theorem raiseExternal_irq (c : Byte) (s : State) : (raiseExternal c s).irq = s.irq := by simp [raiseExternal_eq]
@[simp] theorem writeControl_irq (x : TimerId) (v : Byte) (s : State) : (writeControl x v s).irq = s.irq := by
  simp [writeControl_eq]
@[simp] theorem writeLatchLow_irq (x : TimerId) (v : Byte) (s : State) : (writeLatchLow x v s).irq = s.irq := by
  simp [writeLatchLow]
@[simp] theorem writeLatchHigh_irq (x : TimerId) (v : Byte) (s : State) : (writeLatchHigh x v s).irq = s.irq := by
  simp only [writeLatchHigh]
  split <;> simp

/-- The Idle Optimizer does not touch the line on entry (R168). -/
@[simp] theorem tryEnterIdle_irq (s : State) : (tryEnterIdle s).irq = s.irq := by
  rcases tryEnterIdle_cases s with hstay | ⟨-, -, n, henter, -⟩
  · rw [hstay]
  · rw [henter]

/-- An Idle TICK does not touch the line (R169). -/
@[simp] theorem idleTick_irq (s : State) : (idleTick s).irq = s.irq := by
  rcases idleTick_cases s with ⟨-, -, hstay⟩ | ⟨-, hcount⟩
  · rw [hstay]
  · rw [hcount]

/-- The line after a TICK: `Int1` of an Active chip asserts it, and nothing in a TICK releases it (R144). -/
theorem tick_irq (s : State) : (tick s).irq = (s.irq || (!s.idle && hasBit s.pending .int1)) := by
  unfold tick
  cases hidle : s.idle
  · simp [activeTick_irq]
  · simp

/-- What an operation can do to the line: TICK drives it, RD_ICR and RESET release it, every other operation leaves it as it
was (R25, R144, R146). -/
theorem irq_cases_of_exec {i : Instr} {s t : State} (h : exec i s = .next t) :
    (i = .tick ∧ t = tick s) ∨ ((i = .rdIcr ∨ i = .reset) ∧ t.irq = false) ∨ t.irq = s.irq := by
  cases i
  case tick => exact .inl ⟨rfl, (Host.Outcome.next.inj h).symm⟩
  case cause c => exact .inr (.inr (by rw [exec_cause_next h, raiseExternal_irq]))
  all_goals obtain rfl := Host.Outcome.next.inj h; right
  case rdIcr => exact .inl ⟨.inl rfl, rfl⟩
  case reset => exact .inl ⟨.inr rfl, rfl⟩
  all_goals right
  case rdPrb | wrPrb | wrImr => simp
  case wrTalo v | wrTblo v => exact writeLatchLow_irq _ v s
  case wrTahi v | wrTbhi v => exact writeLatchHigh_irq _ v s
  case wrCra v | wrCrb v => exact writeControl_irq _ v s
  all_goals rfl

/-- Settles O41: TICK alone can raise the line, and `tick_irq` says that it does so from `Int1` of an Active chip and keeps a line
that is asserted. -/
theorem lineIsAssertedByInt1Only : Obligations.LineIsAssertedByInt1Only := by
  unfold Obligations.LineIsAssertedByInt1Only
  refine ⟨fun s hactive hint => ?_, fun i s t h hhigh hlow => ?_, fun s t h hlow => ?_⟩
  · exact ⟨tick s, exec_tick s, by simp [tick_irq, hactive, hint]⟩
  · rcases irq_cases_of_exec h with ⟨rfl, rfl⟩ | ⟨-, hreleased⟩ | hkept
    · simpa [tick_irq, hhigh] using hlow
    · exact absurd hlow (by simp [hreleased])
    · exact absurd hlow (by simp [hkept, hhigh])
  · obtain rfl := Host.Outcome.next.inj h
    simp [tick_irq, hlow]

end Sys2Proof.Machine

namespace Sys2Proof.Machine

/-! ### The recorded causes (R125, R162, R188) -/

/-- The cause timer X raises in the coming TICK, if it underflows there (R125). -/
def underflowCause (x : TimerId) (s : State) : Causes :=
  if underflowDue x s then BitVec.twoPow 5 x.cause.code else 0#5

/-- The causes an operation records. It reads neither the mask nor the causes already there (R35, R188). -/
def raisedCauses (i : Instr) (s : State) : Causes :=
  match i with
  | .tick => underflowCause .a s ||| underflowCause .b s
  | .cause c => externalCauses c
  | _ => 0#5

@[simp] theorem pulsePc_icr (s : State) : (pulsePc s).icr = s.icr := rfl
@[simp] theorem raiseExternal_icr (c : Byte) (s : State) : (raiseExternal c s).icr = s.icr ||| externalCauses c := by
  rw [raiseExternal_eq]
@[simp] theorem writeControl_icr (x : TimerId) (v : Byte) (s : State) : (writeControl x v s).icr = s.icr := by
  simp [writeControl_eq]
@[simp] theorem writeLatchLow_icr (x : TimerId) (v : Byte) (s : State) : (writeLatchLow x v s).icr = s.icr := by
  simp [writeLatchLow]
@[simp] theorem writeLatchHigh_icr (x : TimerId) (v : Byte) (s : State) : (writeLatchHigh x v s).icr = s.icr := by
  simp only [writeLatchHigh]
  split <;> simp

/-- The Idle Optimizer records and loses no cause on entry (R168). -/
@[simp] theorem tryEnterIdle_icr (s : State) : (tryEnterIdle s).icr = s.icr := by
  rcases tryEnterIdle_cases s with hstay | ⟨-, -, n, henter, -⟩
  · rw [hstay]
  · rw [henter]

/-- An Idle TICK records and loses no cause (R169). -/
@[simp] theorem idleTick_icr (s : State) : (idleTick s).icr = s.icr := by
  rcases idleTick_cases s with ⟨-, -, hstay⟩ | ⟨-, hcount⟩
  · rw [hstay]
  · rw [hcount]

theorem newCauseA_of_active {s : State} (h : s.idle = false) : newCauseA s = underflowDue .a s := by
  simp [newCauseA, underflowDue, h, TimerId.count2]
theorem newCauseB_of_active {s : State} (h : s.idle = false) : newCauseB s = underflowDue .b s := by
  simp [newCauseB, underflowDue, h, TimerId.count2]

theorem underflowCause_of_idle {s : State} (x : TimerId) (h : s.idle = true) : underflowCause x s = 0#5 := by
  simp [underflowCause, underflowDue, h]

/-- The causes after a TICK: the recorded ones, and that of each timer that underflows in it (R125, R188). -/
theorem tick_icr (s : State) : (tick s).icr = s.icr ||| raisedCauses .tick s := by
  unfold tick raisedCauses
  cases hidle : s.idle
  case true => simp [underflowCause_of_idle _ hidle]
  case false =>
    simp only [Bool.false_eq_true, if_false, tryEnterIdle_icr, activeTick_icr, newCauseA_of_active hidle,
      newCauseB_of_active hidle, underflowCause]
    cases underflowDue .a s <;> cases underflowDue .b s <;> simp [withCause, TimerId.cause, BitVec.or_assoc]

/-- What an operation can do to the causes: RD_ICR and RESET clear them, every other operation adds its own to them (R146,
R188, R205). -/
theorem icr_of_exec {i : Instr} {s t : State} (h : exec i s = .next t) :
    t.icr = if i = .rdIcr ∨ i = .reset then 0#5 else s.icr ||| raisedCauses i s := by
  cases i
  case cause c => rw [exec_cause_next h, raiseExternal_icr]; simp [raisedCauses]
  all_goals obtain rfl := Host.Outcome.next.inj h
  case tick => simp [tick_icr]
  case rdIcr | reset => rfl
  all_goals simp [raisedCauses]

/-- Whether a cause is recorded does not depend on the mask (R188). -/
theorem raisedCauses_imr (i : Instr) (s : State) (m : Causes) : raisedCauses i { s with imr := m } = raisedCauses i s := by
  cases i <;> rfl

/-- Settles O43: `icr_of_exec` gives the causes after every operation, and the mask is not in it. -/
theorem causesAreSticky : Obligations.CausesAreSticky := by
  unfold Obligations.CausesAreSticky
  refine ⟨fun i s t h hread hreset k hk => ?_, fun i s hi => ?_, fun i s t u m ht hu => ?_⟩
  · simp [icr_of_exec h, hread, hreset, hk]
  · rcases hi with rfl | rfl <;> exact ⟨_, rfl, rfl⟩
  · rw [icr_of_exec ht, icr_of_exec hu, raisedCauses_imr]

end Sys2Proof.Machine

namespace Sys2Proof

open BitVec (extractLsb'_append_eq_left extractLsb'_append_eq_of_le extractLsb'_append_eq_right extractLsb'_append_extractLsb'_eq_extractLsb'
  extractLsb'_eq_self)

/-! ### The formats of the stimulus word, decoded (R65 to R69) -/

/-- Case analysis along the formats of R66 to R69: an operation is an event, a register read, a register write or an input. -/
theorem Instr.forms {p : Instr → Prop} (tick : p .tick) (reset : p .reset) (read : ∀ rs, p (readOf rs))
    (write : ∀ rs db, p (writeOf rs db)) (inpa : ∀ v, p (.inpa v)) (inpb : ∀ v, p (.inpb v)) (gate : ∀ g, p (.gate g))
    (cause : ∀ c, p (.cause c)) (i : Instr) : p i := by
  cases i
  exacts [tick, reset, read 0, read 1, read 2, read 3, read 4, read 5, read 6, read 7, read 8, read 9, read 10, read 11,
    read 12, read 13, read 14, read 15, write 0 _, write 1 _, write 2 _, write 3 _, write 4 _, write 5 _, write 6 _,
    write 7 _, write 8 _, write 9 _, write 10 _, write 11 _, write 12 _, write 13 _, write 14 _, write 15 _, inpa _,
    inpb _, gate _, cause _]

theorem decode_readWord : ∀ rs : RegSelect, decode (readWord rs) = some (readOf rs) := by decide

theorem decode_writeWord (rs : RegSelect) (db : Byte) : decode (writeWord rs db) = some (writeOf rs db) := by
  have zero : (writeWord rs db).extractLsb' 12 1 = 0#1 :=
    (extractLsb'_append_eq_of_le (by decide)).trans (extractLsb'_append_eq_of_le (by decide))
  have select : (writeWord rs db).extractLsb' 8 4 = rs :=
    (extractLsb'_append_eq_of_le (by decide)).trans extractLsb'_append_eq_right
  have data : (writeWord rs db).extractLsb' 0 8 = db := extractLsb'_append_eq_right
  rw [decode, zero, select, data, writeWord]
  simp only [BitVec.getLsbD_append]
  rfl

theorem in8Word_zero (kind : BitVec 3) (v : Byte) : (in8Word kind v).extractLsb' 8 5 = 0#5 :=
  (extractLsb'_append_eq_of_le (by decide)).trans extractLsb'_append_eq_right

theorem in8Word_data (kind : BitVec 3) (v : Byte) : (in8Word kind v).extractLsb' 0 8 = v := extractLsb'_append_eq_right

theorem decode_inpaWord (v : Byte) : decode (in8Word 0b100#3 v) = some (.inpa v) := by
  rw [decode, in8Word_zero, in8Word_data, in8Word]
  simp only [BitVec.getLsbD_append]
  rfl

theorem decode_inpbWord (v : Byte) : decode (in8Word 0b101#3 v) = some (.inpb v) := by
  rw [decode, in8Word_zero, in8Word_data, in8Word]
  simp only [BitVec.getLsbD_append]
  rfl

theorem decode_in1Word (g : Bool) : decode (in1Word g) = some (.gate g) := by cases g <;> rfl

theorem decode_incWord : ∀ m : BitVec 3, decode (incWord m) = some (.cause (0#3 ++ m ++ 0#2)) := by decide

/-! ### The formats, encoded -/

theorem encode_readOf : ∀ rs : RegSelect, encode (readOf rs) = readWord rs := by decide

theorem encode_writeOf (rs : RegSelect) (db : Byte) : encode (writeOf rs db) = writeWord rs db := by
  obtain ⟨k⟩ := rs
  fin_cases k <;> rfl

theorem readOf_wf : ∀ rs : RegSelect, (readOf rs).wf = true := by decide

theorem writeOf_wf (rs : RegSelect) (db : Byte) : (writeOf rs db).wf = true := by
  unfold writeOf
  split <;> rfl

/-- A mask byte CAUSE may carry is known by its bits 4:2 (R69). -/
theorem causeMask_eq : ∀ c : Byte, causeMaskOk c = true → 0#3 ++ c.extractLsb' 2 3 ++ 0#2 = c := by decide

/-- Settles O1, format by format. -/
theorem decodeOfEncodeIsTheOperation : Obligations.DecodeOfEncodeIsTheOperation := by
  unfold Obligations.DecodeOfEncodeIsTheOperation
  refine Instr.forms ?tick ?reset ?read ?write ?inpa ?inpb ?gate ?cause
  case tick | reset => exact fun _ => rfl
  case read => exact fun rs _ => by rw [encode_readOf, decode_readWord]
  case write => exact fun rs db _ => by rw [encode_writeOf, decode_writeWord]
  case inpa => exact fun v _ => decode_inpaWord v
  case inpb => exact fun v _ => decode_inpbWord v
  case gate => exact fun g _ => decode_in1Word g
  case cause => exact fun c hc => by rw [encode, decode_incWord, causeMask_eq c hc]

/-! ### Every word the decoder accepts has a format (R76, R78) -/

theorem ifZero_eq_some {n : Nat} {z : BitVec n} {i j : Instr} : ifZero z i = some j ↔ z = 0#n ∧ i = j := by
  simp [ifZero]

/-- A word is its two parts on both sides of a cut. -/
theorem word_cut (w : StimulusWord) (lo hi len : Nat) :
    w.extractLsb' lo (hi + len) = w.extractLsb' (lo + len) hi ++ w.extractLsb' lo len :=
  (extractLsb'_append_extractLsb'_eq_extractLsb' rfl).symm

theorem append_inj {n m : Nat} {a c : BitVec n} {b d : BitVec m} (h : a ++ b = c ++ d) : a = c ∧ b = d := by
  have hi := congrArg (BitVec.extractLsb' m n) h
  have lo := congrArg (BitVec.extractLsb' 0 m) h
  rw [extractLsb'_append_eq_left, extractLsb'_append_eq_left] at hi
  rw [extractLsb'_append_eq_right, extractLsb'_append_eq_right] at lo
  exact ⟨hi, lo⟩

theorem append_eq_zero {n m : Nat} {a : BitVec n} {b : BitVec m} (h : a ++ b = 0#(n + m)) : a = 0#n ∧ b = 0#m :=
  append_inj (h.trans BitVec.zero_append_zero.symm)

theorem eq_ofBool : ∀ b : BitVec 1, ∃ g, b = BitVec.ofBool g := by decide

/-- The field `kind = w[15:13]` is spelled by the three bits that `decode` looks at (R65). -/
theorem kind_eq (w : StimulusWord) {k2 k1 k0 : Bool} (h15 : w.getLsbD 15 = k2) (h14 : w.getLsbD 14 = k1)
    (h13 : w.getLsbD 13 = k0) : w.extractLsb' 13 3 = BitVec.ofBool k2 ++ BitVec.ofBool k1 ++ BitVec.ofBool k0 := by
  subst h15 h14 h13
  refine BitVec.eq_of_getLsbD_eq fun i hi => ?_
  simp only [BitVec.getLsbD_append, BitVec.getLsbD_extractLsb', BitVec.getLsbD_ofBool]
  obtain rfl | rfl | rfl : i = 0 ∨ i = 1 ∨ i = 2 := by omega
  all_goals simp

/-- Every word the decoder accepts is written in one of the formats (R66 to R69). -/
theorem format_of_decode {w : StimulusWord} {i : Instr} (h : decode w = some i) :
    w = eventWord 0b000#3 ∨ w = eventWord 0b011#3 ∨ (∃ rs, w = readWord rs) ∨ (∃ rs db, w = writeWord rs db) ∨
    (∃ v, w = in8Word 0b100#3 v) ∨ (∃ v, w = in8Word 0b101#3 v) ∨ (∃ g, w = in1Word g) ∨ (∃ m, w = incWord m) := by
  have whole : w = w.extractLsb' 0 16 := extractLsb'_eq_self.symm
  unfold decode at h
  split at h
  all_goals
    rename_i h15 h14 h13
    rw [ifZero_eq_some] at h
    obtain ⟨zero, -⟩ := h
    have kind := kind_eq w h15 h14 h13
  · rw [word_cut w 0 3 13, kind, zero] at whole
    exact .inl whole
  · obtain ⟨z, data⟩ := append_eq_zero zero
    rw [word_cut w 0 8 8, word_cut w 8 4 4, word_cut w 12 3 1, kind, z, data] at whole
    exact .inr (.inr (.inl ⟨_, whole⟩))
  · rw [word_cut w 0 8 8, word_cut w 8 4 4, word_cut w 12 3 1, kind, zero] at whole
    exact .inr (.inr (.inr (.inl ⟨_, _, whole⟩)))
  · rw [word_cut w 0 3 13, kind, zero] at whole
    exact .inr (.inl whole)
  · rw [word_cut w 0 8 8, word_cut w 8 3 5, kind, zero] at whole
    exact .inr (.inr (.inr (.inr (.inl ⟨_, whole⟩))))
  · rw [word_cut w 0 8 8, word_cut w 8 3 5, kind, zero] at whole
    exact .inr (.inr (.inr (.inr (.inr (.inl ⟨_, whole⟩)))))
  · obtain ⟨g, bit⟩ := eq_ofBool (w.extractLsb' 0 1)
    rw [word_cut w 0 15 1, word_cut w 1 3 12, kind, zero, bit] at whole
    exact .inr (.inr (.inr (.inr (.inr (.inr (.inl ⟨g, whole⟩))))))
  · obtain ⟨high, low⟩ := append_eq_zero zero
    rw [word_cut w 0 14 2, word_cut w 2 11 3, word_cut w 5 3 8, kind, high, low] at whole
    exact .inr (.inr (.inr (.inr (.inr (.inr (.inr ⟨_, whole⟩))))))

theorem incMask_wf : ∀ m : BitVec 3, causeMaskOk (0#3 ++ m ++ 0#2) = true := by decide
theorem incMask_bits : ∀ m : BitVec 3, (0#3 ++ m ++ 0#2 : Byte).extractLsb' 2 3 = m := by decide

/-- Settles O2: a word the decoder accepts has a format, and each format is decoded to what it encodes. -/
theorem encodeOfDecodeIsTheWord : Obligations.EncodeOfDecodeIsTheWord := by
  unfold Obligations.EncodeOfDecodeIsTheWord
  intro w i h
  rcases format_of_decode h with rfl | rfl | ⟨rs, rfl⟩ | ⟨rs, db, rfl⟩ | ⟨v, rfl⟩ | ⟨v, rfl⟩ | ⟨g, rfl⟩ | ⟨m, rfl⟩
  · cases h; exact ⟨rfl, rfl⟩
  · cases h; exact ⟨rfl, rfl⟩
  · rw [decode_readWord] at h; cases h; exact ⟨encode_readOf rs, readOf_wf rs⟩
  · rw [decode_writeWord] at h; cases h; exact ⟨encode_writeOf rs db, writeOf_wf rs db⟩
  · rw [decode_inpaWord] at h; cases h; exact ⟨rfl, rfl⟩
  · rw [decode_inpbWord] at h; cases h; exact ⟨rfl, rfl⟩
  · rw [decode_in1Word] at h; cases h; exact ⟨rfl, rfl⟩
  · rw [decode_incWord] at h; cases h; exact ⟨congrArg incWord (incMask_bits m), incMask_wf m⟩

/-! ### The rows of the opcode map (R70) -/

theorem opcodeRow_readOf : ∀ rs : RegSelect, opcodeRow (readOf rs) = ⟨readWord rs, 0xFFFF⟩ := by decide

theorem opcodeRow_writeOf (rs : RegSelect) (db : Byte) : opcodeRow (writeOf rs db) = ⟨writeWord rs 0, 0xFF00⟩ := by
  obtain ⟨k⟩ := rs
  fin_cases k <;> rfl

/-- The encoder's word of every operation is spelled by the operation's own row. -/
theorem opcodeRow_spells_encode (i : Instr) : (opcodeRow i).spells (encode i) = true := by
  refine Instr.forms (p := fun i => (opcodeRow i).spells (encode i) = true) rfl rfl ?read ?write Laws.EncodesRow.inpa
    Laws.EncodesRow.inpb Laws.EncodesRow.gate Laws.EncodesRow.cause i
  case read => decide
  case write =>
    intro rs db
    rw [opcodeRow_writeOf, encode_writeOf]
    exact beq_iff_eq.mpr (Laws.EncodesRow.writeWord_spells rs db)

/-- A word whose bits above `m` are matched is the matched bits and its own low bits. -/
theorem eq_append_of_and_mask {n m : Nat} {w : BitVec (n + m)} {hi : BitVec n}
    (h : w &&& (BitVec.allOnes n ++ 0#m) = hi ++ 0#m) : w = hi ++ w.extractLsb' 0 m := by
  have cut : w = w.extractLsb' m n ++ w.extractLsb' 0 m :=
    extractLsb'_eq_self.symm.trans (extractLsb'_append_extractLsb'_eq_extractLsb' (Nat.zero_add m).symm).symm
  rw [cut, BitVec.and_append, BitVec.and_allOnes] at h
  rw [← (append_inj h).1]
  exact cut

/-- A word that matches the row of CAUSE is written in the format INC (R69, R70). -/
theorem eq_incWord_of_and_mask {w : StimulusWord} (h : w &&& 0xFFE3#16 = 0xE000#16) : ∃ m, w = incWord m := by
  have cut : w = w.extractLsb' 5 11 ++ w.extractLsb' 2 3 ++ w.extractLsb' 0 2 := by
    rw [← word_cut w 2 11 3, ← word_cut w 0 14 2, extractLsb'_eq_self]
  have masked : (w.extractLsb' 5 11 ++ w.extractLsb' 2 3 ++ w.extractLsb' 0 2) &&&
      (BitVec.allOnes 11 ++ 0#3 ++ BitVec.allOnes 2) = 0b11100000000#11 ++ 0#3 ++ 0#2 := by
    rw [← cut]; exact h
  rw [BitVec.and_append, BitVec.and_append, BitVec.and_allOnes, BitVec.and_allOnes, BitVec.and_zero] at masked
  obtain ⟨upper, low⟩ := append_inj masked
  rw [(append_inj upper).1, low] at cut
  exact ⟨_, cut⟩

/-- A word that matches a row is decoded to an operation of that row. -/
theorem decode_of_spells {w : StimulusWord} {i : Instr} (h : (opcodeRow i).spells w = true) :
    ∃ j, decode w = some j ∧ opcodeRow j = opcodeRow i := by
  have wholeWord : ∀ {pattern : StimulusWord}, w &&& 0xFFFF#16 = pattern → w = pattern :=
    fun h => BitVec.and_allOnes.symm.trans h
  revert h
  refine Instr.forms (p := fun i => (opcodeRow i).spells w = true → ∃ j, decode w = some j ∧ opcodeRow j = opcodeRow i)
    ?tick ?reset ?read ?write ?inpa ?inpb ?gate ?cause i
  case tick => exact fun h => ⟨.tick, by rw [wholeWord (eq_of_beq h)]; rfl, rfl⟩
  case reset => exact fun h => ⟨.reset, by rw [wholeWord (eq_of_beq h)]; rfl, rfl⟩
  case read =>
    intro rs h
    rw [opcodeRow_readOf] at h
    exact ⟨readOf rs, by rw [wholeWord (eq_of_beq h), decode_readWord], rfl⟩
  case write =>
    intro rs db h
    rw [opcodeRow_writeOf] at h
    have hw : w = writeWord rs (w.extractLsb' 0 8) := eq_append_of_and_mask (n := 8) (m := 8) (eq_of_beq h)
    exact ⟨_, by rw [hw, decode_writeWord], by rw [opcodeRow_writeOf, opcodeRow_writeOf]⟩
  case inpa =>
    intro v h
    have hw : w = in8Word 0b100#3 (w.extractLsb' 0 8) := eq_append_of_and_mask (n := 8) (m := 8) (eq_of_beq h)
    exact ⟨.inpa (w.extractLsb' 0 8), (congrArg decode hw).trans (decode_inpaWord _), rfl⟩
  case inpb =>
    intro v h
    have hw : w = in8Word 0b101#3 (w.extractLsb' 0 8) := eq_append_of_and_mask (n := 8) (m := 8) (eq_of_beq h)
    exact ⟨.inpb (w.extractLsb' 0 8), (congrArg decode hw).trans (decode_inpbWord _), rfl⟩
  case gate =>
    intro g h
    obtain ⟨b, hb⟩ := eq_ofBool (w.extractLsb' 0 1)
    have hw := eq_append_of_and_mask (n := 15) (m := 1) (hi := 0b110#3 ++ 0#12) (eq_of_beq h)
    rw [hb] at hw
    exact ⟨.gate b, by rw [hw]; exact decode_in1Word b, rfl⟩
  case cause =>
    intro c h
    obtain ⟨m, rfl⟩ := eq_incWord_of_and_mask (eq_of_beq h)
    exact ⟨_, decode_incWord m, rfl⟩

/-- Settles O3: by O2 an accepted word is the encoder's, which its row spells; a spelled word is decoded to that row, so it has no
other row and is not reserved. -/
theorem wordSpellsTheRowItMatches : Obligations.WordSpellsTheRowItMatches := by
  unfold Obligations.WordSpellsTheRowItMatches
  have accepted : ∀ (w : StimulusWord) (i : Instr), decode w = some i → (opcodeRow i).spells w = true := by
    intro w i h
    rw [← (encodeOfDecodeIsTheWord w i h).1]
    exact opcodeRow_spells_encode i
  refine ⟨accepted, fun w i => decode_of_spells, fun w i j hi hj => ?_, fun w => ⟨fun hnone i => ?_, fun hall => ?_⟩⟩
  · obtain ⟨k, hk, rowI⟩ := decode_of_spells hi
    obtain ⟨l, hl, rowJ⟩ := decode_of_spells hj
    obtain rfl : k = l := Option.some.inj (hk.symm.trans hl)
    exact rowI.symm.trans rowJ
  · rw [Bool.eq_false_iff]
    intro hi
    obtain ⟨k, hk, -⟩ := decode_of_spells hi
    exact absurd (hnone.symm.trans hk) nofun
  · rw [Option.eq_none_iff_forall_ne_some]
    intro i hi
    exact absurd (accepted w i hi) (by rw [hall i]; decide)

/-- Settles O4: the sample words are closed. -/
theorem sampleWordsDecode : Obligations.SampleWordsDecode := by
  unfold Obligations.SampleWordsDecode
  decide

end Sys2Proof

namespace Sys2Proof.Machine

/-! ### The two timer steps of an Active TICK (R117 to R129, R166) -/

@[simp] theorem afterPins_pending (s : State) : (afterPins s).pending = s.pending := by rw [afterPins, pinSteps_eq]
@[simp] theorem afterPins_feed (s : State) : (afterPins s).feed = s.feed := by rw [afterPins, pinSteps_eq]
@[simp] theorem afterPins_gate (s : State) : (afterPins s).gate = s.gate := by rw [afterPins, pinSteps_eq]

/-- Steps 1 and 2 end the pulses that are due and change nothing else of a timer (R109). -/
@[simp] theorem afterPins_timer (x : TimerId) (s : State) : (afterPins s).timer x =
    { s.timer x with output := (s.timer x).output && !hasBit s.pending x.pbLow1 } := by
  rw [afterPins, pinSteps_eq]
  cases x <;> rfl

/-- One of the three count stages that the one-shot stop takes out of `pending` (R126). -/
def isDrained (x : TimerId) (b : PipeBit) : Bool := x.count0 = b || x.count1 = b || x.count2 = b

/-- What an underflow does to one bit of `pending`: it schedules the reload and, in pulse mode, the end of the pulse; with the
one-shot bit it empties the count chain (R125, R126). -/
theorem hasBit_pendingAfterUnderflow (x : TimerId) (s : State) (b : PipeBit) : hasBit (pendingAfterUnderflow x s) b =
    ((hasBit s.pending b || (startsPulse x s && x.pbLow0 = b)) && !(oneShotSelected x s && isDrained x b) ||
      decide (x.load0 = b)) := by
  cases hp : startsPulse x s <;> cases ho : oneShotSelected x s <;>
    simp [pendingAfterUnderflow, isDrained, hp, ho, Bool.and_assoc]

/-- What timer X's own step does to one bit of `pending`; the cascade of timer A comes last (R129). -/
theorem hasBit_timerStep_pending (x : TimerId) (s : State) (b : PipeBit) : hasBit (timerStep x s).pending b =
    if underflowsInStep x s then
      hasBit (pendingAfterUnderflow x s) b || (x = .a && cascadeEnabled s && PipeBit.countB1 = b)
    else hasBit s.pending b := by
  rw [timerStep_pending]
  cases underflowsInStep x s
  · rfl
  · cases hc : cascadeEnabled s <;> cases x <;> simp

/-- Whether timer X stops itself in the coming TICK (R126). -/
def stopDue (x : TimerId) (s : State) : Bool := underflowDue x s && oneShotSelected x s

/-- The state after step 4 of an Active TICK. -/
def afterTimers (s : State) : State := timerStep .b (afterTimerA s)

@[simp] theorem oneShotSelected_afterPins (x : TimerId) (s : State) :
    oneShotSelected x (afterPins s) = oneShotSelected x s := by simp [oneShotSelected]
@[simp] theorem startsPulse_afterPins (x : TimerId) (s : State) : startsPulse x (afterPins s) = startsPulse x s := by
  simp [startsPulse]
@[simp] theorem cascadeEnabled_afterPins (s : State) : cascadeEnabled (afterPins s) = cascadeEnabled s := by
  have ht := afterPins_timer .b s
  rw [State.timer_b, State.timer_b] at ht
  simp [cascadeEnabled, running, ht]

/-- Timer A's step leaves the other timer as steps 1 and 2 left it (R118). -/
@[simp] theorem afterTimerA_timer_b (s : State) : (afterTimerA s).timer .b = (afterPins s).timer .b :=
  timerStep_other (by decide) _

@[simp] theorem afterTimerA_feed (s : State) : (afterTimerA s).feed =
    if newCauseA s && oneShotSelected .a s then clearBit s.feed (TimerId.count0 .a) else s.feed := by
  rw [afterTimerA, timerStep_feed, underflowsInStep_a, oneShotSelected_afterPins, afterPins_feed]

@[simp] theorem oneShotSelected_b_afterTimerA (s : State) : oneShotSelected .b (afterTimerA s) = oneShotSelected .b s := by
  have hp := timerA_keeps_b_bits s .oneShotB0 (by simp)
  simp [oneShotSelected, TimerId.oneShot, TimerId.count0, hp, hasBit_ite]

@[simp] theorem startsPulse_b_afterTimerA (s : State) : startsPulse .b (afterTimerA s) = startsPulse .b s := by
  rw [← startsPulse_afterPins .b s, startsPulse, startsPulse, afterTimerA_timer_b]

/-- One bit of `pending` after both timer steps, before the interrupt step and the shift. -/
theorem hasBit_afterTimers {s : State} (h : s.idle = false) (b : PipeBit) : hasBit (afterTimers s).pending b =
    ((((hasBit s.pending b || (underflowDue .a s && startsPulse .a s && TimerId.pbLow0 .a = b)) &&
        !(stopDue .a s && isDrained .a b)) ||
        (underflowDue .a s && (TimerId.load0 .a = b || (cascadeEnabled s && PipeBit.countB1 = b))) ||
        (underflowDue .b s && startsPulse .b s && TimerId.pbLow0 .b = b)) &&
        !(stopDue .b s && isDrained .b b) ||
      (underflowDue .b s && TimerId.load0 .b = b)) := by
  rw [afterTimers, hasBit_timerStep_pending, underflowsInStep_b, newCauseB_of_active h, hasBit_pendingAfterUnderflow,
    startsPulse_b_afterTimerA, oneShotSelected_b_afterTimerA, afterTimerA, hasBit_timerStep_pending, underflowsInStep_a,
    newCauseA_of_active h, hasBit_pendingAfterUnderflow, startsPulse_afterPins, oneShotSelected_afterPins,
    cascadeEnabled_afterPins, afterPins_pending, stopDue, stopDue]
  cases underflowDue .a s <;> cases underflowDue .b s <;>
    simp [Bool.or_assoc]

theorem hasBit_afterTimers_feed {s : State} (h : s.idle = false) (b : PipeBit) : hasBit (afterTimers s).feed b =
    (hasBit s.feed b && !(stopDue .a s && TimerId.count0 .a = b) && !(stopDue .b s && TimerId.count0 .b = b)) := by
  rw [afterTimers, timerStep_feed, underflowsInStep_b, newCauseB_of_active h, oneShotSelected_b_afterTimerA,
    afterTimerA_feed, newCauseA_of_active h, ← stopDue, ← stopDue]
  cases stopDue .a s <;> cases stopDue .b s <;> simp

/-- A timer step takes bits out of `feed` and adds none (R126). -/
theorem afterTimers_feed_used {s : State} (hf : s.feed &&& ~~~feedBits = 0#32) :
    (afterTimers s).feed &&& ~~~feedBits = 0#32 := by
  have cleared : ∀ {f : PipeWord} (b : PipeBit), f &&& ~~~feedBits = 0#32 → clearBit f b &&& ~~~feedBits = 0#32 := by
    intro f b hz
    rw [clearBit, BitVec.and_assoc, BitVec.and_comm (~~~b.mask), ← BitVec.and_assoc, hz, BitVec.zero_and]
  have hA : (afterTimerA s).feed &&& ~~~feedBits = 0#32 := by
    rw [afterTimerA_feed]
    split
    · exact cleared _ hf
    · exact hf
  rw [afterTimers, timerStep_feed]
  split
  · exact cleared _ hA
  · exact hA

/-- The record of timer X after an Active TICK (R109, R117, R125, R126). -/
def timerAfterTick (x : TimerId) (s : State) : Timer :=
  let pin := (s.timer x).output && !hasBit s.pending x.pbLow1
  { latch := (s.timer x).latch
    counter := nextCounter x s
    control := if stopDue x s then clearStart (s.timer x).control else (s.timer x).control
    toggle := if underflowDue x s then !(s.timer x).toggle else (s.timer x).toggle
    output := if underflowDue x s then
        outputAfterUnderflow { s.timer x with toggle := !(s.timer x).toggle, output := pin }
      else pin }

theorem afterTimers_timer {s : State} (h : s.idle = false) (x : TimerId) :
    (afterTimers s).timer x = timerAfterTick x s := by
  cases x
  case a =>
    rw [afterTimers, timerStep_other (by decide), afterTimerA, timerStep_timer, underflowsInStep_a, newCauseA_of_active h]
    cases hu : underflowDue .a s <;>
      simp [-State.timer_a, timerAfterTick, timerAfterUnderflow, stopDue, hu, nextCounter_afterPins, outputAfterUnderflow]
  case b =>
    rw [afterTimers, timerStep_timer, underflowsInStep_b, newCauseB_of_active h]
    cases hu : underflowDue .b s <;>
      simp [-State.timer_b, timerAfterTick, timerAfterUnderflow, stopDue, hu, nextCounter_afterTimerA, outputAfterUnderflow]

/-! ### An Active TICK as a whole (R83, R108, R144, R145, R166) -/

theorem activeTick_eq_of_active {s : State} (h : s.idle = false) : activeTick s =
    shiftStep (interruptStep (underflowDue .a s || underflowDue .b s) (afterTimers s)) := by
  rw [activeTick_eq, newCauseA_of_active h, newCauseB_of_active h]
  rfl

theorem activeTick_timer {s : State} (h : s.idle = false) (x : TimerId) : (activeTick s).timer x = timerAfterTick x s := by
  rw [← afterTimers_timer h, activeTick_eq_of_active h, interruptStep_eq]
  cases x <;> rfl

/-- What an Active TICK leaves alone (R43). -/
theorem activeTick_frame (s : State) : activeTick s =
    { s with
      timerA := (activeTick s).timerA, timerB := (activeTick s).timerB, icr := (activeTick s).icr
      irq := (activeTick s).irq, pcLine := (activeTick s).pcLine, pending := (activeTick s).pending
      feed := (activeTick s).feed } := by
  have kept : afterTimers s = { s with
      timerA := (afterTimers s).timerA, timerB := (afterTimers s).timerB, icr := (afterTimers s).icr
      pcLine := (afterTimers s).pcLine, pending := (afterTimers s).pending
      feed := (afterTimers s).feed } := by
    ext <;> simp [afterTimers, afterTimerA, afterPins, pinSteps_eq]
  rw [activeTick_eq, interruptStep_eq, ← afterTimers, kept]
  rfl

/-! ### TICK: an Active TICK and the entry into Idle (R165, R168) -/

/-- Entering Idle touches nothing but the counters, `idle` and `idleLeft` (R168). -/
theorem tryEnterIdle_frame (s : State) : tryEnterIdle s =
    { s with
      timerA := { s.timerA with counter := (tryEnterIdle s).timerA.counter }
      timerB := { s.timerB with counter := (tryEnterIdle s).timerB.counter }
      idle := (tryEnterIdle s).idle, idleLeft := (tryEnterIdle s).idleLeft } := by
  rcases tryEnterIdle_cases s with hstay | ⟨-, -, n, henter, -⟩
  · rw [hstay]
  · rw [henter]
    ext <;> simp [preAdvanced_latch, preAdvanced_control, preAdvanced_toggle, preAdvanced_output]

theorem tick_of_active {s : State} (h : s.idle = false) : tick s = tryEnterIdle (activeTick s) := by simp [tick, h]
theorem tick_of_idle {s : State} (h : s.idle = true) : tick s = idleTick s := by simp [tick, h]

theorem mustSchedule_eq (s : State) : mustSchedule s = (decide (s.icr &&& s.imr ≠ 0#5) && !s.irq) := by
  rw [Bool.eq_iff_iff, mustSchedule_iff]
  simp

/-- Whether the coming TICK of an Active chip schedules an assertion: one of its underflows leaves an enabled cause recorded and
the line high (R145). -/
def assertionDue (s : State) : Bool := (underflowDue .a s || underflowDue .b s) && mustSchedule (tick s)

section
variable {s : State} (h : s.idle = false)
include h

theorem tick_pending_of_active : (tick s).pending =
    shiftPipe (if assertionDue s then setBit (afterTimers s).pending .int0 else (afterTimers s).pending)
      (afterTimers s).feed := by
  have due : mustSchedule (tick s) = (enabledCauses (afterTimers s) != 0#5 &&
      !((afterTimers s).irq || hasBit (afterTimers s).pending .int1)) := by
    rw [tick_of_active h, tryEnterIdle_frame, activeTick_eq_of_active h, interruptStep_eq]
    rfl
  rw [assertionDue, due, tick_of_active h, tryEnterIdle_frame, activeTick_eq_of_active h, interruptStep_eq]
  rfl

theorem tick_feed_of_active : (tick s).feed = (afterTimers s).feed := by
  rw [tick_of_active h, tryEnterIdle_frame, activeTick_eq_of_active h, interruptStep_eq]
  rfl

/-- One bit of `feed` after an Active TICK: only the one-shot stop takes one out (R126). -/
theorem hasBit_tick_feed (b : PipeBit) : hasBit (tick s).feed b =
    (hasBit s.feed b && !(stopDue .a s && TimerId.count0 .a = b) && !(stopDue .b s && TimerId.count0 .b = b)) := by
  rw [tick_feed_of_active h, hasBit_afterTimers_feed h]

theorem tick_feed_count0 (x : TimerId) : hasBit (tick s).feed x.count0 = (hasBit s.feed x.count0 && !stopDue x s) := by
  rw [hasBit_tick_feed h]
  cases x <;> simp [TimerId.count0]

theorem tick_feed_oneShot (x : TimerId) : hasBit (tick s).feed x.oneShot = hasBit s.feed x.oneShot := by
  rw [hasBit_tick_feed h]
  cases x <;> simp [TimerId.count0, TimerId.oneShot]

/-- One bit of `pending` after an Active TICK, by the stage before it and by `feed` (R83). -/
theorem hasBit_tick_pending (b : PipeBit) : hasBit (tick s).pending b =
    (stageBefore (afterTimers s).pending b || (decide (b = .int1) && assertionDue s) || hasBit (tick s).feed b) := by
  rw [tick_pending_of_active h, tick_feed_of_active h, hasBit_shiftPipe]
  congr 1
  cases assertionDue s
  · simp
  · cases b <;> simp [stageBefore, PipeBit.before]

/-- The record of timer X after the TICK of an Active chip; entering Idle pre-advances its stored counter (R168). -/
theorem tick_timer_of_active (x : TimerId) :
    (tick s).timer x = { timerAfterTick x s with counter := ((tick s).timer x).counter } := by
  rw [tick_of_active h, tryEnterIdle_frame, ← activeTick_timer h x]
  cases x <;> rfl

end

section
variable {s : State} (h : s.idle = false) (hf : s.feed &&& ~~~feedBits = 0#32)
include h hf

theorem tick_feed_used : (tick s).feed &&& ~~~feedBits = 0#32 := by
  rw [tick_feed_of_active h]
  exact afterTimers_feed_used hf

/-- A bit that `feed` never holds comes from the stage before it alone (R84). -/
theorem hasBit_tick_pending_of_shifted {b : PipeBit}
    (hb : b ≠ .countA0 ∧ b ≠ .countB0 ∧ b ≠ .oneShotA0 ∧ b ≠ .oneShotB0) : hasBit (tick s).pending b =
    (stageBefore (afterTimers s).pending b || (decide (b = .int1) && assertionDue s)) := by
  rw [hasBit_tick_pending h, hasBit_feed (tick_feed_used h hf) b hb, Bool.or_false]

theorem tick_pending_used : (tick s).pending &&& ~~~usedBits = 0#32 := by
  have shifted : ~~~usedBits = ~~~feedBits &&& ~~~usedBits ∧ shiftMask &&& ~~~usedBits = 0#32 := by decide
  have fed : (afterTimers s).feed &&& ~~~usedBits = 0#32 := by
    rw [shifted.1, ← BitVec.and_assoc, afterTimers_feed_used hf, BitVec.zero_and]
  rw [tick_pending_of_active h, shiftPipe, BitVec.and_or_distrib_right, BitVec.and_assoc, shifted.2, fed]
  simp

end

/-! ### The named bits after an Active TICK, chain by chain (R81 to R91) -/

section
variable {s : State} (h : s.idle = false) (x : TimerId)
include h

theorem afterTimers_count0 :
    hasBit (afterTimers s).pending x.count0 = (hasBit s.pending x.count0 && !stopDue x s) := by
  rw [hasBit_afterTimers h]
  cases x <;> simp [isDrained, TimerId.count0, TimerId.count1, TimerId.count2, TimerId.load0, TimerId.pbLow0]

theorem afterTimers_count1 : hasBit (afterTimers s).pending x.count1 =
    ((hasBit s.pending x.count1 || (decide (x = .b) && underflowDue .a s && cascadeEnabled s)) && !stopDue x s) := by
  rw [hasBit_afterTimers h]
  cases x <;> simp [isDrained, TimerId.count0, TimerId.count1, TimerId.count2, TimerId.load0, TimerId.pbLow0]

theorem afterTimers_count2 :
    hasBit (afterTimers s).pending x.count2 = (hasBit s.pending x.count2 && !stopDue x s) := by
  rw [hasBit_afterTimers h]
  cases x <;> simp [isDrained, TimerId.count0, TimerId.count1, TimerId.count2, TimerId.load0, TimerId.pbLow0]

theorem afterTimers_load0 : hasBit (afterTimers s).pending x.load0 = (hasBit s.pending x.load0 || underflowDue x s) := by
  rw [hasBit_afterTimers h]
  cases x <;> simp [isDrained, TimerId.count0, TimerId.count1, TimerId.count2, TimerId.load0, TimerId.pbLow0]

theorem afterTimers_pbLow0 : hasBit (afterTimers s).pending x.pbLow0 =
    (hasBit s.pending x.pbLow0 || (underflowDue x s && startsPulse x s)) := by
  rw [hasBit_afterTimers h]
  cases x <;> simp [isDrained, TimerId.count0, TimerId.count1, TimerId.count2, TimerId.load0, TimerId.pbLow0]

/-- The interrupt and the handshake chain belong to no timer. -/
theorem afterTimers_int0 : hasBit (afterTimers s).pending .int0 = hasBit s.pending .int0 := by
  rw [hasBit_afterTimers h]
  simp [isDrained, TimerId.count0, TimerId.count1, TimerId.count2, TimerId.load0, TimerId.pbLow0]

theorem afterTimers_pcHigh0 : hasBit (afterTimers s).pending .pcHigh0 = hasBit s.pending .pcHigh0 := by
  rw [hasBit_afterTimers h]
  simp [isDrained, TimerId.count0, TimerId.count1, TimerId.count2, TimerId.load0, TimerId.pbLow0]

/-- A bit reaches the next stage in a TICK whatever `feed` holds. -/
theorem hasBit_tick_of_before {b c : PipeBit} (hb : b.before = some c) (hc : hasBit (afterTimers s).pending c = true) :
    hasBit (tick s).pending b = true := by
  simp [hasBit_tick_pending h, stageBefore, hb, hc]

theorem tick_count0 : hasBit (tick s).pending x.count0 = (hasBit s.feed x.count0 && !stopDue x s) := by
  rw [hasBit_tick_pending h, tick_feed_count0 h]
  cases x <;> simp [stageBefore, PipeBit.before, TimerId.count0]

theorem tick_oneShot : hasBit (tick s).pending x.oneShot = hasBit s.feed x.oneShot := by
  rw [hasBit_tick_pending h, tick_feed_oneShot h]
  cases x <;> simp [stageBefore, PipeBit.before, TimerId.oneShot]

end

section
variable {s : State} (h : s.idle = false) (hf : s.feed &&& ~~~feedBits = 0#32) (x : TimerId)
include h hf

theorem hasBit_tick_eq_before {b c : PipeBit} (hb : b.before = some c) (hint : b ≠ .int1) :
    hasBit (tick s).pending b = hasBit (afterTimers s).pending c := by
  have shifted : b ≠ .countA0 ∧ b ≠ .countB0 ∧ b ≠ .oneShotA0 ∧ b ≠ .oneShotB0 := by
    refine ⟨?_, ?_, ?_, ?_⟩ <;> rintro rfl <;> cases hb
  simp [hasBit_tick_pending_of_shifted h hf shifted, stageBefore, hb, hint]

/-- Stage 0 of a chain that `feed` does not hold is empty after a TICK. -/
theorem hasBit_tick_stage0 {b : PipeBit} (hb : b.before = none)
    (hfeed : b ≠ .countA0 ∧ b ≠ .countB0 ∧ b ≠ .oneShotA0 ∧ b ≠ .oneShotB0) : hasBit (tick s).pending b = false := by
  have hint : b ≠ .int1 := by rintro rfl; cases hb
  simp [hasBit_tick_pending_of_shifted h hf hfeed, stageBefore, hb, hint]

theorem tick_count1 : hasBit (tick s).pending x.count1 = (hasBit s.pending x.count0 && !stopDue x s) := by
  rw [hasBit_tick_eq_before h hf (c := x.count0) (by cases x <;> rfl) (by cases x <;> decide), afterTimers_count0 h]

theorem tick_count2 : hasBit (tick s).pending x.count2 =
    ((hasBit s.pending x.count1 || (decide (x = .b) && underflowDue .a s && cascadeEnabled s)) && !stopDue x s) := by
  rw [hasBit_tick_eq_before h hf (c := x.count1) (by cases x <;> rfl) (by cases x <;> decide), afterTimers_count1 h]

theorem tick_count3 : hasBit (tick s).pending x.count3 = (hasBit s.pending x.count2 && !stopDue x s) := by
  rw [hasBit_tick_eq_before h hf (c := x.count2) (by cases x <;> rfl) (by cases x <;> decide), afterTimers_count2 h]

theorem tick_load0 : hasBit (tick s).pending x.load0 = false :=
  hasBit_tick_stage0 h hf (by cases x <;> rfl) (by cases x <;> decide)

theorem tick_load1 : hasBit (tick s).pending x.load1 = (hasBit s.pending x.load0 || underflowDue x s) := by
  rw [hasBit_tick_eq_before h hf (c := x.load0) (by cases x <;> rfl) (by cases x <;> decide), afterTimers_load0 h]

theorem tick_pbLow0 : hasBit (tick s).pending x.pbLow0 = false :=
  hasBit_tick_stage0 h hf (by cases x <;> rfl) (by cases x <;> decide)

theorem tick_pbLow1 : hasBit (tick s).pending x.pbLow1 =
    (hasBit s.pending x.pbLow0 || (underflowDue x s && startsPulse x s)) := by
  rw [hasBit_tick_eq_before h hf (c := x.pbLow0) (by cases x <;> rfl) (by cases x <;> decide), afterTimers_pbLow0 h]

theorem tick_int0 : hasBit (tick s).pending .int0 = false := hasBit_tick_stage0 h hf rfl (by decide)

theorem tick_int1 : hasBit (tick s).pending .int1 = (hasBit s.pending .int0 || assertionDue s) := by
  rw [hasBit_tick_pending_of_shifted h hf (by decide), stageBefore, PipeBit.before, ← afterTimers_int0 h]
  simp

theorem tick_pcHigh0 : hasBit (tick s).pending .pcHigh0 = false := hasBit_tick_stage0 h hf rfl (by decide)

theorem tick_pcHigh1 : hasBit (tick s).pending .pcHigh1 = hasBit s.pending .pcHigh0 := by
  rw [hasBit_tick_eq_before h hf (c := .pcHigh0) rfl (by decide), afterTimers_pcHigh0 h]

end

/-- Settles O60: the lemmas of the section above, bit by bit. -/
theorem activeTickMovesEveryBitOneStage : Obligations.ActiveTickMovesEveryBitOneStage := by
  unfold Obligations.ActiveTickMovesEveryBitOneStage
  intro s h hf
  refine ⟨tick s, exec_tick s, tick_pending_used h hf, tick_feed_used h hf, fun x => ?_, tick_int0 h hf, ?_,
    tick_pcHigh0 h hf, tick_pcHigh1 h hf⟩
  · refine ⟨tick_feed_count0 h x, tick_count0 h x, tick_count1 h hf x, tick_count2 h hf x, tick_count3 h hf x,
      tick_load0 h hf x, tick_load1 h hf x, tick_pbLow0 h hf x, ?_, tick_feed_oneShot h x, tick_oneShot h x⟩
    rw [tick_pbLow1 h hf, startsPulse, Bool.and_assoc]
    rfl
  · rw [tick_int1 h hf, assertionDue]
    rw [mustSchedule_eq, ← Bool.and_assoc]

end Sys2Proof.Machine

namespace Sys2Proof.Machine

/-! ### The timer record after a TICK, field by field -/

section
variable {s : State} (h : s.idle = false) (x : TimerId)
include h

theorem tick_latch_of_active : ((tick s).timer x).latch = (s.timer x).latch := by
  rw [tick_timer_of_active h, timerAfterTick]

theorem tick_control_of_active : ((tick s).timer x).control =
    if stopDue x s then clearStart (s.timer x).control else (s.timer x).control := by
  rw [tick_timer_of_active h, timerAfterTick]

/-- The one-shot stop clears START and leaves the other fields of the control register (R126). -/
theorem tick_ctlPbOn : ctlPbOn ((tick s).timer x).control = ctlPbOn (s.timer x).control := by
  rw [tick_control_of_active h]
  split <;> simp

theorem tick_ctlToggleMode : ctlToggleMode ((tick s).timer x).control = ctlToggleMode (s.timer x).control := by
  rw [tick_control_of_active h]
  split <;> simp

theorem tick_toggle_of_active : ((tick s).timer x).toggle =
    if underflowDue x s then !(s.timer x).toggle else (s.timer x).toggle := by
  rw [tick_timer_of_active h, timerAfterTick]

theorem tick_output_of_active : ((tick s).timer x).output =
    if underflowDue x s ∧ ctlPbOn (s.timer x).control then
      (if ctlToggleMode (s.timer x).control then !(s.timer x).toggle else true)
    else (s.timer x).output && !hasBit s.pending x.pbLow1 := by
  rw [tick_timer_of_active h, timerAfterTick]
  cases underflowDue x s <;> simp [outputAfterUnderflow]

end

theorem underflowDue_iff {s : State} (h : s.idle = false) (x : TimerId) :
    underflowDue x s = true ↔ nextCounter x s = 0#16 ∧ hasBit s.pending x.count2 = true := by
  simp [underflowDue, h]

theorem active_of_underflowDue {x : TimerId} {s : State} (h : underflowDue x s = true) : s.idle = false := by
  cases hi : s.idle
  · rfl
  · simp [underflowDue, hi] at h

/-- The handshake line after a TICK: `PCHigh1` of an Active chip lets it go (R108). -/
theorem tick_pcLine (s : State) : (tick s).pcLine = (s.pcLine || (!s.idle && hasBit s.pending .pcHigh1)) := by
  cases h : s.idle
  · rw [tick_of_active h, tryEnterIdle_frame]
    have hp : (afterPins s).pcLine = (s.pcLine || hasBit s.pending .pcHigh1) := by rw [afterPins, pinSteps_eq]
    simp [activeTick_eq, interruptStep_eq, shiftStep, afterTimerA, hp]
  · rw [tick_of_idle h]
    rcases idleTick_cases s with ⟨-, -, hstay⟩ | ⟨-, hcount⟩
    · simp [hstay]
    · simp [hcount]

/-! ### Entering Idle (R168) -/

theorem clocksToUnderflow_eq_some {s : State} {k : Nat} (h : clocksToUnderflow s = some k) :
    (∃ x, counting x s = true ∧ (s.timer x).counter.toNat = k) ∧
      ∀ x, counting x s = true → k ≤ (s.timer x).counter.toNat := by
  unfold clocksToUnderflow at h
  split at h
  case h_1 => cases h
  all_goals
    rename_i ha hb
    obtain rfl := Option.some.inj h
  case h_2 => exact ⟨⟨.a, ha, rfl⟩, fun x hx => by cases x <;> simp_all⟩
  case h_3 => exact ⟨⟨.b, hb, rfl⟩, fun x hx => by cases x <;> simp_all⟩
  case h_4 =>
    refine ⟨?_, fun x _ => by cases x <;> simp⟩
    rcases Nat.le_total s.timerA.counter.toNat s.timerB.counter.toNat with hle | hle
    · exact ⟨.a, ha, (Nat.min_eq_left hle).symm⟩
    · exact ⟨.b, hb, (Nat.min_eq_right hle).symm⟩

theorem preAdvanced_counter_toNat {x : TimerId} {s : State} {n : Nat} (hx : counting x s = true)
    (hn : n ≤ (s.timer x).counter.toNat) : (preAdvanced x n s).counter.toNat + n = (s.timer x).counter.toNat := by
  have hlt := (s.timer x).counter.isLt
  simp only [preAdvanced, hx, if_true, BitVec.toNat_sub, BitVec.toNat_ofNat]
  omega

/-- What the TICK of an Active chip does beside the timer steps: it leaves the chip Active with the counters of R117, or enters
Idle from a steady pipeline with each running counter pre-advanced by the clocks it will skip (R168). -/
theorem tick_idle_cases {s : State} (h : s.idle = false) :
    ((tick s).idle = false ∧ (tick s).idleLeft = s.idleLeft ∧ ∀ x, ((tick s).timer x).counter = nextCounter x s) ∨
    ((tick s).idle = true ∧ s.config.idleEnable = true ∧ steady (tick s).pending (tick s).feed = true ∧
      (((∀ x, counting x (tick s) = false) ∧ (tick s).idleLeft = 0) ∨
        (s.config.idleMin ≤ (tick s).idleLeft ∧
          (∃ x, counting x (tick s) = true ∧ (nextCounter x s).toNat = (tick s).idleLeft + 1) ∧
          ∀ x, counting x (tick s) = true → (tick s).idleLeft + 1 ≤ (nextCounter x s).toNat ∧
            ((tick s).timer x).counter.toNat + (tick s).idleLeft = (nextCounter x s).toNat))) := by
  have hc := fun x => activeTick_counter x s
  have hi : (activeTick s).idle = false := (activeTick_idle s).trans h
  have hleft : (activeTick s).idleLeft = s.idleLeft := by rw [activeTick_frame]
  have hcfg : (activeTick s).config = s.config := by rw [activeTick_frame]
  rw [tick_of_active h]
  generalize activeTick s = u at *
  rcases tryEnterIdle_cases u with hstay | ⟨henable, hsteady, n, henter, hn⟩
  · rw [hstay]
    exact .inl ⟨hi, hleft, hc⟩
  · right
    rw [henter, ← hcfg]
    refine ⟨rfl, henable, hsteady, ?_⟩
    rcases hn with ⟨ha, hb, rfl⟩ | ⟨hk, hmin⟩
    · exact .inl ⟨fun x => by cases x; exacts [ha, hb], rfl⟩
    · obtain ⟨⟨x, hx, hxn⟩, hle⟩ := clocksToUnderflow_eq_some hk
      refine .inr ⟨hmin, ⟨x, hx, (hc x) ▸ hxn⟩, fun y hy => ?_⟩
      have hy' : counting y u = true := hy
      have hley := hle y hy'
      rw [← hc y]
      refine ⟨hley, ?_⟩
      rw [← preAdvanced_counter_toNat hy' (Nat.le_of_succ_le hley)]
      cases y <;> rfl

/-! ### The causes after a TICK (R125, R188) -/

theorem underflowCause_getLsbD (x : TimerId) (s : State) (k : Nat) :
    (underflowCause x s).getLsbD k = (underflowDue x s && decide (k = x.cause.code)) := by
  have hcode : x.cause.code < 5 := by cases x <;> decide
  unfold underflowCause
  cases underflowDue x s <;> simp [BitVec.getLsbD_twoPow, hcode, eq_comm]

/-- An underflow records its cause in the same TICK (R125). -/
theorem tick_icr_of_underflow {x : TimerId} {s : State} (h : underflowDue x s = true) :
    (tick s).icr.getLsbD x.cause.code = true := by
  rw [tick_icr, raisedCauses]
  cases x <;> simp [underflowCause_getLsbD, h]

theorem tick_icr_ne_zero {s : State} (h : s.icr ≠ 0#5 ∨ assertionDue s = true) : (tick s).icr ≠ 0#5 := by
  intro hz
  rcases h with hs | hdue
  · rw [tick_icr] at hz
    exact hs (BitVec.or_eq_zero_iff.mp hz).1
  · simp [assertionDue, mustSchedule_eq, hz] at hdue

/-! ### The obligations on the TICK -/

/-- Settles O24: the counter after the TICK is the one R117 gives, whether or not the chip enters Idle. -/
theorem activeTickLoadsOrDecrements : Obligations.ActiveTickLoadsOrDecrements := by
  unfold Obligations.ActiveTickLoadsOrDecrements
  intro x s h
  exact ⟨tick s, exec_tick s, logicalCounter_tick_of_active x h⟩

/-- A steady pipeline holds count and one-shot bits only (R94). -/
theorem hasBit_of_steady {p f : PipeWord} (h : steady p f = true) {b : PipeBit} (hb : hasBit p b = true) :
    hasBit steadyBits b = true := by
  simp only [steady, Bool.and_eq_true, beq_iff_eq] at h
  have outside := congrArg (BitVec.getLsbD · b.pos) h.1
  have hpos := b.pos_lt
  unfold hasBit at hb ⊢
  simpa [hb, show b.pos < 32 by omega] using outside

/-- A TICK leaves the chip Active when a bit is in flight that a steady pipeline cannot hold (R94). -/
theorem tick_active_of_unsteady {s : State} (h : s.idle = false) {b : PipeBit}
    (hb : hasBit steadyBits b = false) (hset : hasBit (tick s).pending b = true) : (tick s).idle = false := by
  rcases tick_idle_cases h with ⟨hactive, -⟩ | ⟨-, -, hsteady, -⟩
  · exact hactive
  · exact absurd (hasBit_of_steady hsteady hset) (by simp [hb])

/-- A cause bit of timer X changes in a TICK only by the timer's own underflow. -/
theorem tick_icr_getLsbD (x : TimerId) (s : State) :
    (tick s).icr.getLsbD x.cause.code = (s.icr.getLsbD x.cause.code || underflowDue x s) := by
  rw [tick_icr, raisedCauses, BitVec.getLsbD_or, BitVec.getLsbD_or, underflowCause_getLsbD, underflowCause_getLsbD]
  cases x <;> simp [TimerId.cause, Cause.code]

/-- Settles O25: each clause is the lemma on its bit or field, for a timer that underflows and for one that does not. -/
theorem underflowActionsOfATick : Obligations.UnderflowActionsOfATick := by
  unfold Obligations.UnderflowActionsOfATick
  intro x s h hf
  refine ⟨tick s, exec_tick s, fun hdue => ?_, fun hnot => ?_⟩
  · have hu : underflowDue x s = true := (underflowDue_iff h x).mpr hdue
    have hload : hasBit (tick s).pending x.load1 = true := by simp [tick_load1 h hf, hu]
    have hactive : (tick s).idle = false := tick_active_of_unsteady h (by cases x <;> decide) hload
    refine ⟨by simp [tick_icr_getLsbD, hu], by simp [tick_toggle_of_active h, hu], ?_, hload, ?_, fun hp ht => ?_⟩
    · rw [← logicalCounter_of_active x hactive, logicalCounter_tick_of_active x h, hdue.1]
    · simp [tick_output_of_active h, hu, ctlPbOn, ctlToggleMode]
    · rw [tick_pbLow1 h hf, hu, startsPulse, ctlPbOn, ctlToggleMode, hp, ht]
      simp
  · have hu : underflowDue x s = false := by rwa [← underflowDue_iff h x, Bool.not_eq_true] at hnot
    refine ⟨by simp [tick_icr_getLsbD, hu], by simp [tick_toggle_of_active h, hu], ?_, by simp [tick_load1 h hf, hu], ?_⟩
    · simp [tick_control_of_active h, stopDue, hu]
    · simp [tick_output_of_active h, hu]

/-- Settles O26: the stop is the underflow with the one-shot bit selected, `stopDue`. -/
theorem oneShotUnderflowStopsTheTimer : Obligations.OneShotUnderflowStopsTheTimer := by
  unfold Obligations.OneShotUnderflowStopsTheTimer
  intro x s hf hu
  have h := active_of_underflowDue hu
  have hstop : stopDue x s = (hasBit s.pending x.oneShot || hasBit s.feed x.oneShot) := by
    simp [stopDue, hu, oneShotSelected]
  refine ⟨tick s, exec_tick s, fun hsel => ?_, fun hsel => ?_⟩
  · rw [hsel] at hstop
    refine ⟨?_, ?_, ?_, ?_, ?_, ?_⟩
    · simp [tick_control_of_active h, hstop, clearStart]
    · simp [tick_feed_count0 h, hstop]
    · simp [tick_count0 h, hstop]
    · simp [tick_count1 h hf, hstop]
    · simp [tick_count2 h hf, hstop]
    · simp [tick_count3 h hf, hstop]
  · rw [hsel] at hstop
    simp [tick_control_of_active h, hstop]

/-- The cascade modes in the bits of CRB (R22). -/
theorem cascadeMode_eq (v : Byte) (g : Bool) : (inputMode .b v == .cascade || (inputMode .b v == .cascadeGated && g)) =
    (v.getLsbD 6 && (!v.getLsbD 5 || g)) := by
  unfold inputMode
  cases v.getLsbD 6 <;> cases v.getLsbD 5 <;> cases g <;> rfl

/-- The cascade condition in the bits of CRB and the gate (R129). -/
theorem cascadeEnabled_eq (s : State) : cascadeEnabled s =
    (s.timerB.control.getLsbD 0 && (s.timerB.control.getLsbD 6 && (!s.timerB.control.getLsbD 5 || s.gate))) := by
  rw [cascadeEnabled, cascadeMode_eq]
  rfl

/-- Settles O27: `CountB2` after a TICK, with the cascade condition spelled in the bits of CRB. -/
theorem cascadePulseReachesTimerB : Obligations.CascadePulseReachesTimerB := by
  unfold Obligations.CascadePulseReachesTimerB
  intro s h hf
  refine ⟨tick s, exec_tick s, (tick_count2 h hf .b).trans ?_⟩
  simp [cascadeEnabled_eq, stopDue, oneShotSelected, TimerId.count1, TimerId.oneShot, Bool.and_assoc]

/-- Settles O53: `idleTick_cases`, with `counting` spelled as the bits `CountX3`. -/
theorem idleTickOnlyCountsDown : Obligations.IdleTickOnlyCountsDown := by
  unfold Obligations.IdleTickOnlyCountsDown
  intro s h
  rw [exec_tick, tick_of_idle h]
  change _ = Host.Outcome.next (if counting .a s || counting .b s then _ else _)
  rcases idleTick_cases s with ⟨ha, hb, hstay⟩ | ⟨hrun, hcount⟩
  · simp [ha, hb, hstay]
  · simp [hrun, hcount]

/-- The variables a TICK can change (R43). -/
theorem tick_frame (s : State) : tick s =
    { s with
      timerA := (tick s).timerA, timerB := (tick s).timerB, icr := (tick s).icr, irq := (tick s).irq
      pcLine := (tick s).pcLine, pending := (tick s).pending, feed := (tick s).feed, idle := (tick s).idle
      idleLeft := (tick s).idleLeft } := by
  cases h : s.idle
  · rw [tick_of_active h, tryEnterIdle_frame, activeTick_frame]
  · rw [tick_of_idle h]
    rcases idleTick_cases s with ⟨-, -, hstay⟩ | ⟨-, hcount⟩
    · rw [hstay]
    · rw [hcount]

/-- An Idle TICK changes no timer record (R169). -/
theorem tick_timer_of_idle {s : State} (h : s.idle = true) (x : TimerId) : (tick s).timer x = s.timer x := by
  rw [tick_of_idle h]
  rcases idleTick_cases s with ⟨-, -, hstay⟩ | ⟨-, hcount⟩
  · rw [hstay]
  · rw [hcount]
    cases x <;> rfl

@[simp] theorem tick_latch (x : TimerId) (s : State) : ((tick s).timer x).latch = (s.timer x).latch := by
  cases h : s.idle
  · exact tick_latch_of_active h x
  · rw [tick_timer_of_idle h]

/-- Settles O50: `tick_frame`, and of a control register only START can change, by the one-shot stop. -/
theorem tickChangesItsOwnVariablesOnly : Obligations.TickChangesItsOwnVariablesOnly := by
  unfold Obligations.TickChangesItsOwnVariablesOnly
  intro s
  refine ⟨tick s, exec_tick s, tick_frame s, fun x => ⟨tick_latch x s, ?_⟩⟩
  cases h : s.idle
  · rw [tick_control_of_active h]
    split
    · exact .inr rfl
    · exact .inl rfl
  · exact .inl (congrArg Timer.control (tick_timer_of_idle h x))

/-- Settles O54: the entry into Idle of `tick_idle_cases`; the logical counter is the one R117 gives. -/
theorem idleIsEnteredOnlyFromASteadyPipeline : Obligations.IdleIsEnteredOnlyFromASteadyPipeline := by
  unfold Obligations.IdleIsEnteredOnlyFromASteadyPipeline
  intro s h
  refine ⟨tick s, exec_tick s, fun hidle => ?_⟩
  have hcfg : (tick s).config = s.config := by rw [tick_frame]
  simp only [logicalCounter_tick_of_active _ h, hcfg]
  rcases tick_idle_cases h with ⟨hactive, -⟩ | ⟨-, henable, hsteady, hentry⟩
  · exact absurd hidle (by simp [hactive])
  · refine ⟨henable, hsteady, ?_⟩
    rcases hentry with ⟨hnone, hleft⟩ | ⟨hmin, hleast, hrun⟩
    · exact .inl ⟨hnone .a, hnone .b, hleft⟩
    · exact .inr ⟨hmin, hleast, fun x hx => (hrun x hx).1⟩

end Sys2Proof.Machine

namespace Sys2Proof.Machine

/-! ### Steps, completion and the plain accesses (R14, R57, R76, R185) -/

/-- Settles O5: `step` by the head of the stimulus sequence and by what the decoder makes of it. -/
theorem stepAppliesTheDecodedOperation : Obligations.StepAppliesTheDecodedOperation := by
  unfold Obligations.StepAppliesTheDecodedOperation
  refine ⟨fun s w rest hs => ⟨fun i hi => ?_, fun hnone => ?_⟩, fun s hs => ?_⟩
  · simp [step, hs, hi]
  · simp [step, hs, hnone]
  · simp [step, hs]

/-- Settles O6: RESET is `State.reset` with the inputs, the parameters and the environment's lists kept. -/
theorem resetGivesEveryVariableItsValue : Obligations.ResetGivesEveryVariableItsValue := by
  unfold Obligations.ResetGivesEveryVariableItsValue
  exact fun s => rfl

theorem exec_cause_of_hook {s : State} (h : s.config.causeHook = true) (c : Byte) :
    exec (.cause c) s = .next (raiseExternal c s) := by
  have hexec : exec (.cause c) s = execCause c s := rfl
  simp [hexec, execCause, h]

theorem exec_cause_of_no_hook {s : State} (h : s.config.causeHook = false) (c : Byte) :
    exec (.cause c) s = .refused .causeHookAbsent := by
  have hexec : exec (.cause c) s = execCause c s := rfl
  simp [hexec, execCause, h]

/-- Settles O8: every operation but CAUSE completes, and CAUSE does with the hook. -/
theorem everyOperationCompletesButCauseWithoutHook : Obligations.EveryOperationCompletesButCauseWithoutHook := by
  unfold Obligations.EveryOperationCompletesButCauseWithoutHook
  intro i s
  by_cases hi : ∃ c, i = .cause c
  · obtain ⟨c, rfl⟩ := hi
    cases hook : s.config.causeHook
    · exact .inr ⟨c, rfl, rfl, exec_cause_of_no_hook hook c⟩
    · exact .inl ⟨_, exec_cause_of_hook hook c⟩
  · exact .inl (exec_completes (fun c hc => hi ⟨c, hc⟩) s)

/-- Settles O16: each input operation stores the new level and touches nothing else. -/
theorem inputOperationsChangeTheirInputOnly : Obligations.InputOperationsChangeTheirInputOnly := by
  unfold Obligations.InputOperationsChangeTheirInputOnly
  exact ⟨fun v s => rfl, fun v s => rfl, fun g s => rfl⟩

/-- Settles O17: eight plain reads of a stored register, and four stores. -/
theorem storedRegistersReadBackAndTodIsRaw : Obligations.StoredRegistersReadBackAndTodIsRaw := by
  unfold Obligations.StoredRegistersReadBackAndTodIsRaw
  intro v s
  exact ⟨exec_of_plainReadValue (i := .rdDdra) rfl s, exec_of_plainReadValue (i := .rdDdrb) rfl s,
    exec_of_plainReadValue (i := .rdCra) rfl s, exec_of_plainReadValue (i := .rdCrb) rfl s,
    exec_of_plainReadValue (i := .rdTod10) rfl s, exec_of_plainReadValue (i := .rdTodsec) rfl s,
    exec_of_plainReadValue (i := .rdTodmin) rfl s, exec_of_plainReadValue (i := .rdTodhr) rfl s, rfl, rfl, rfl, rfl⟩

/-! ### The port B pins (R97) -/

theorem pbOut_getLsbD_of_lt (s : State) {k : Nat} (hk : k < 6) : (pbOut s).getLsbD k = (pbBase s).getLsbD k := by
  simp only [pbOut, BitVec.getLsbD_append, BitVec.getLsbD_extractLsb']
  simp [hk]

theorem pbOut_getLsbD_6 (s : State) : (pbOut s).getLsbD 6 =
    if ctlPbOn s.timerA.control then s.timerA.output else (pbBase s).getLsbD 6 := by
  simp only [pbOut, BitVec.getLsbD_append, BitVec.getLsbD_ofBool]
  simp

theorem pbOut_getLsbD_7 (s : State) : (pbOut s).getLsbD 7 =
    if ctlPbOn s.timerB.control then s.timerB.output else (pbBase s).getLsbD 7 := by
  simp only [pbOut, BitVec.getLsbD_append, BitVec.getLsbD_ofBool]
  simp

/-- Settles O11: three stores; the pins are functions of the state, bit by bit. -/
theorem portWritesAndTheirOutputs : Obligations.PortWritesAndTheirOutputs := by
  unfold Obligations.PortWritesAndTheirOutputs
  exact ⟨fun v s => ⟨rfl, rfl⟩, fun v s => ⟨rfl, rfl⟩, fun v s =>
    ⟨rfl, fun k hk => pbOut_getLsbD_of_lt _ hk, pbOut_getLsbD_6 _, pbOut_getLsbD_7 _⟩⟩

/-! ### The handshake pulse (R101, R102, R107, R108) -/

theorem ticks_one (s : State) : ticks 1 s = tick s := rfl
theorem ticks_two (s : State) : ticks 2 s = tick (tick s) := rfl

/-- A return scheduled at stage 0 lets the line go in the second TICK: the chip cannot have entered Idle (R94, R108). -/
theorem pcLine_second_tick {s : State} (h : s.idle = false) (h0 : hasBit s.pending .pcHigh0 = true) :
    (ticks 2 s).pcLine = true := by
  have hset : hasBit (tick s).pending .pcHigh1 = true :=
    hasBit_tick_of_before h rfl ((afterTimers_pcHigh0 h).trans h0)
  have hactive : (tick s).idle = false := tick_active_of_unsteady h (by decide) hset
  simp [ticks_two, tick_pcLine (tick s), hactive, hset]

theorem pcLine_first_tick {s : State} (h : s.idle = false) (hlow : s.pcLine = false) :
    (ticks 1 s).pcLine = hasBit s.pending .pcHigh1 := by
  simp [ticks_one, tick_pcLine, h, hlow]

theorem setBit_pcHigh0 (p : PipeWord) : setBit p .pcHigh0 = p ||| 0x100000#32 := rfl

@[simp] theorem pulsePc_idle (s : State) : (pulsePc s).idle = s.idle := rfl

@[simp] theorem pbOut_absorb (s : State) : pbOut (absorb s) = pbOut s := by
  simp [pbOut, pbBase]

/-- Settles O12: the byte is taken before the pulse, and the pulse lasts until the second TICK. -/
theorem readPortBReturnsTheBusValueAndPulses : Obligations.ReadPortBReturnsTheBusValueAndPulses := by
  unfold Obligations.ReadPortBReturnsTheBusValueAndPulses
  intro s
  refine ⟨_, exec_rdPrb s, ?_, fun hdue => ⟨?_, pcLine_second_tick ?_ ?_⟩⟩
  · ext <;> simp [pulsePc, returnByte, schedule, setBit_pcHigh0, pbBus]
  · rw [pcLine_first_tick (by simp) (by simp)]
    simp [hdue]
  · simp
  · simp

/-- Settles O13: the store, the pulse as for RD_PRB, and the pins as functions of the stored byte. -/
theorem writePortBStoresAndPulses : Obligations.WritePortBStoresAndPulses := by
  unfold Obligations.WritePortBStoresAndPulses
  intro v s
  have hbase : pbBase (pulsePc { absorb s with prb := v }) = v ||| ~~~s.ddrb := by simp [pbBase, pulsePc]
  refine ⟨_, exec_wrPrb v s, ?_, fun hdue => ⟨?_, pcLine_second_tick ?_ ?_⟩, fun k hk => ?_, ?_, ?_⟩
  · ext <;> simp [pulsePc, schedule, setBit_pcHigh0]
  · rw [pcLine_first_tick (by simp) (by simp)]
    simp [hdue]
  · simp
  · simp
  · rw [pbOut_getLsbD_of_lt _ hk, hbase]
  · rw [pbOut_getLsbD_6, hbase]
    simp [pulsePc, ctlPbOn]
  · rw [pbOut_getLsbD_7, hbase]
    simp [pulsePc, ctlPbOn]

/-- Settles O14: both accesses put the line low with a return at stage 0; the earlier one at stage 1 ends both pulses. -/
theorem portBAccessesMergeTheirPulses : Obligations.PortBAccessesMergeTheirPulses := by
  unfold Obligations.PortBAccessesMergeTheirPulses
  intro i s hi hdue
  have merge : ∀ t : State, t.idle = false → t.pcLine = false → hasBit t.pending .pcHigh0 = true →
      hasBit t.pending .pcHigh1 = true → t.pcLine = false ∧ hasBit t.pending .pcHigh0 = true ∧
        (ticks 1 t).pcLine = true ∧ (ticks 2 t).pcLine = true :=
    fun t hactive hlow h0 h1 =>
      ⟨hlow, h0, (pcLine_first_tick hactive hlow).trans h1, pcLine_second_tick hactive h0⟩
  rcases hi with rfl | ⟨v, rfl⟩
  · exact ⟨_, exec_rdPrb s, merge _ (by simp) (by simp) (by simp) (by simp [hdue])⟩
  · exact ⟨_, exec_wrPrb v s, merge _ (by simp) (by simp) (by simp) (by simp [hdue])⟩

end Sys2Proof.Machine

namespace Sys2Proof.Machine

/-! ### `Absorb` and the latch writes (R114, R116, R170, R171) -/

/-- Settles O23: `absorb_eq`, and the logical counter by its two cases. -/
theorem absorbKeepsTheLogicalCounters : Obligations.AbsorbKeepsTheLogicalCounters := by
  unfold Obligations.AbsorbKeepsTheLogicalCounters
  intro x s
  refine ⟨?_, absorb_eq s, logicalCounter_absorb x s, absorb_of_active⟩
  rw [logicalCounter, counting]
  split <;> simp_all

/-- `v[15:8] ← b` in masks: the mask keeps the low byte, and `b`, shifted up, fills the byte it clears (R71). -/
theorem withHighByte_eq_mask_or (w : Word) (b : Byte) : withHighByte w b = (w &&& 0x00FF#16) ||| (b.setWidth 16 <<< 8) := by
  have masked : w &&& 0x00FF#16 = 0#8 ++ lowByte w :=
    calc w &&& 0x00FF#16
      _ = (highByte w ++ lowByte w) &&& (0#8 ++ BitVec.allOnes 8) := by rw [highByte_append_lowByte]; rfl
      _ = 0#8 ++ lowByte w := by rw [BitVec.and_append, BitVec.and_allOnes, BitVec.and_zero]
  have shifted : b.setWidth 16 <<< 8 = b ++ 0#8 := by
    refine BitVec.eq_of_getLsbD_eq fun i hi => ?_
    simp only [BitVec.getLsbD_shiftLeft, BitVec.getLsbD_append]
    by_cases h : i < 8
    · simp [h]
    · simp [h, hi, show i - 8 < 16 by omega]
  rw [masked, shifted, BitVec.or_append, BitVec.zero_or, BitVec.or_zero, withHighByte]

/-- A write of the high byte of a latch as one record update, for a timer that runs and for one that is stopped (R114, R116). -/
theorem writeLatchHigh_eq (x : TimerId) (v : Byte) (s : State) : writeLatchHigh x v s =
    if running x s then s.setTimer x { s.timer x with latch := withHighByte (s.timer x).latch v }
    else { (absorb s).setTimer x { (absorb s).timer x with latch := withHighByte (s.timer x).latch v } with
      pending := setBit s.pending x.load0 } := by
  cases hrun : running x s
  · rw [writeLatchHigh_of_stopped hrun, absorb_eq, absorb_eq]
    cases x <;> rfl
  · unfold running at hrun
    simp [writeLatchHigh, running, hrun]

/-- Settles O20: `writeLatchHigh_eq` for both timers, START being bit 0. -/
theorem latchHighWritesScheduleALoadWhenStopped : Obligations.LatchHighWritesScheduleALoadWhenStopped := by
  unfold Obligations.LatchHighWritesScheduleALoadWhenStopped
  refine ⟨fun v s => ?_, fun v s => ?_⟩
  · rw [← withHighByte_eq_mask_or]
    refine (exec_latchHighWrite .a v s).trans ?_
    rw [writeLatchHigh_eq]
    rfl
  · rw [← withHighByte_eq_mask_or]
    refine (exec_latchHighWrite .b v s).trans ?_
    rw [writeLatchHigh_eq]
    rfl

/-! ### The bits of a control write (R140 to R143, R151) -/

/-- `pending` after a control write, bit by bit. -/
theorem hasBit_pendingAfterControl (x : TimerId) (v : Byte) (p : PipeWord) (b : PipeBit) :
    hasBit (pendingAfterControl x v p) b =
      if b = x.count0 ∨ b = x.count1 then countsSystemClock x v
      else if b = x.oneShot then hasBit p b || ctlOneShot v
      else if b = x.load0 then hasBit p b || ctlLoad v
      else if b = x.pbLow0 ∨ b = x.pbLow1 then hasBit p b && selectsPulse v
      else hasBit p b := by
  rw [pendingAfterControl]
  simp only [hasBit_ite, hasBit_setBit, hasBit_clearBit]
  cases x <;> cases b <;>
    simp [TimerId.count0, TimerId.count1, TimerId.oneShot, TimerId.load0, TimerId.pbLow0, TimerId.pbLow1, Bool.or_comm,
      Bool.and_comm]

/-- `feed` after a control write, bit by bit. -/
theorem hasBit_feedAfterControl (x : TimerId) (v : Byte) (f : PipeWord) (b : PipeBit) :
    hasBit (feedAfterControl x v f) b =
      if b = x.count0 then countsSystemClock x v else if b = x.oneShot then ctlOneShot v else hasBit f b := by
  rw [feedAfterControl]
  simp only [hasBit_ite, hasBit_setBit, hasBit_clearBit]
  cases x <;> cases b <;> simp [TimerId.count0, TimerId.oneShot]

/-- "Counts system clocks" in the bits of the control byte (R21, R22, R140). -/
theorem countsSystemClock_eq (x : TimerId) (v : Byte) : countsSystemClock x v =
    match x with
    | .a => v.getLsbD 0 && !v.getLsbD 5
    | .b => v.getLsbD 0 && !v.getLsbD 6 && !v.getLsbD 5 := by
  cases x <;> simp only [countsSystemClock, ctlStart, inputMode]
  · cases v.getLsbD 0 <;> cases v.getLsbD 5 <;> rfl
  · cases v.getLsbD 0 <;> cases v.getLsbD 6 <;> cases v.getLsbD 5 <;> rfl

section
variable (x : TimerId) (v : Byte) (s : State)

@[simp] theorem writeControl_pending : (writeControl x v s).pending = pendingAfterControl x v s.pending := by
  rw [writeControl_eq]
@[simp] theorem writeControl_feed : (writeControl x v s).feed = feedAfterControl x v s.feed := by rw [writeControl_eq]
@[simp] theorem writeControl_idle : (writeControl x v s).idle = false := by simp [writeControl_eq]
@[simp] theorem writeControl_timer : (writeControl x v s).timer x = timerAfterControl x v s := by
  rw [writeControl_eq]
  cases x <;> rfl

theorem writeControl_timer_other {x y : TimerId} (h : y ≠ x) : (writeControl x v s).timer y = reconciled y s := by
  rw [← absorb_timer, ← State.timer_setTimer_other (absorb s) (timerAfterControl x v s) h, writeControl_eq]
  cases y <;> rfl

end

/-- Settles O33: `pending` and `feed` after a control write, the count condition spelled in the bits of the byte. -/
theorem controlWriteSetsThePipelineBits : Obligations.ControlWriteSetsThePipelineBits := by
  unfold Obligations.ControlWriteSetsThePipelineBits
  intro x v s
  refine ⟨_, exec_controlWrite x v s, fun b => ?_, fun b => ?_⟩
  · rw [writeControl_pending, hasBit_pendingAfterControl, countsSystemClock_eq, selectsPulse, ← Bool.and_assoc]
    rfl
  · rw [writeControl_feed, hasBit_feedAfterControl, countsSystemClock_eq]
    rfl

/-- Settles O34: `timerAfterControl` field by field; `writeControl_eq` is the frame. -/
theorem controlWriteChangesItsTimerOnly : Obligations.ControlWriteChangesItsTimerOnly := by
  unfold Obligations.ControlWriteChangesItsTimerOnly
  intro x v s
  refine ⟨_, exec_controlWrite x v s, fun k _ => ?_, ?_, ?_, ?_, ?_, fun y hy => writeControl_timer_other v s hy, ?_⟩
  · rw [writeControl_timer, timerAfterControl, storedControl_getLsbD]
  · rw [writeControl_timer, timerAfterControl, toggleAfterWrite, ctlStart, ctlStart, ctlToggleMode]
    cases v.getLsbD 0 <;> cases (s.timer x).control.getLsbD 0 <;> cases v.getLsbD 2 <;> simp
  · rw [writeControl_timer, timerAfterControl, selectsPulse, ctlPbOn, ctlToggleMode]
    cases v.getLsbD 1 <;> cases v.getLsbD 2 <;> simp
  · rw [writeControl_timer, timerAfterControl]
  · rw [writeControl_timer, timerAfterControl]
  · rw [writeControl_eq, absorb_eq]
    cases x <;> rfl

/-! ### Acknowledge, mask and cause (R146, R148, R162) -/

theorem icrByte_toNat (s : State) : (icrByte s).toNat = (if s.irq then 128 else 0) + s.icr.toNat := by
  have all : ∀ (q : Bool) (c : Causes), (BitVec.ofBool q ++ 0#2 ++ c).toNat = (if q then 128 else 0) + c.toNat := by decide
  exact all s.irq s.icr

@[simp] theorem icrByte_absorb (s : State) : icrByte (absorb s) = icrByte s := by simp [icrByte]

/-- Settles O35: the byte, the acknowledge on the absorbed state, and the second read of cleared registers. -/
theorem readIcrSnapshotsAndClears : Obligations.ReadIcrSnapshotsAndClears := by
  unfold Obligations.ReadIcrSnapshotsAndClears
  intro s
  refine ⟨_, _, icrByte s, exec_rdIcr s, ?_, icrByte_toNat s, fun b => ?_, exec_rdIcr _, ?_⟩
  · ext <;> simp [returnByte, acknowledge]
  · simp [eq_comm, Bool.and_assoc]
  · simp [icrByte]

theorem setBit_int0 (p : PipeWord) : setBit p .int0 = p ||| 0x010000#32 := rfl

/-- Settles O36: the mask bit by bit; the scheduling reads the new mask. -/
theorem writeImrSetsOrClearsMaskBits : Obligations.WriteImrSetsOrClearsMaskBits := by
  unfold Obligations.WriteImrSetsOrClearsMaskBits
  intro v s
  refine ⟨_, exec_wrImr v s, fun k hk => ?_, ?_⟩
  · simp only [scheduleInterrupt_imr, absorb_imr]
    exact maskAfterWrite_getLsbD s.imr v hk
  · rw [scheduleInterrupt_eq]
    simp only [mustSchedule_iff, setBit_int0, absorb_icr, absorb_irq, absorb_pending]

theorem externalCauses_getLsbD (c : Byte) {k : Nat} (hk : k < 5) :
    (externalCauses c).getLsbD k = (decide (2 ≤ k) && c.getLsbD k) := by
  obtain rfl | rfl | rfl | rfl | rfl : k = 0 ∨ k = 1 ∨ k = 2 ∨ k = 3 ∨ k = 4 := by omega
  all_goals simp [externalCauses]

theorem externalCauses_eq_zero : ∀ c : Byte, externalCauses c = 0#5 ↔ c &&& 0x1C#8 = 0#8 := by decide

/-- Settles O37: `raiseExternal_eq`, the set of causes spelled as the mask byte. -/
theorem causeRaisesExternalCauses : Obligations.CauseRaisesExternalCauses := by
  unfold Obligations.CauseRaisesExternalCauses
  refine fun c s => ⟨fun hook => ⟨_, exec_cause_of_hook hook c, fun k hk => ?_, ?_⟩, fun hook => exec_cause_of_no_hook hook c⟩
  · rw [raiseExternal_icr, BitVec.getLsbD_or, externalCauses_getLsbD c hk]
  · rw [raiseExternal_eq]
    simp only [Ne, externalCauses_eq_zero, setBit_int0]

/-! ### From a cause to the line (R144, R145, R150) -/

/-- An assertion at stage 1 after the TICK of an Active chip lowers the line in the next TICK: the chip cannot have entered Idle. -/
theorem irq_after_int1 {s : State} (h : s.idle = false) (h1 : hasBit (tick s).pending .int1 = true) :
    (tick (tick s)).irq = true := by
  simp [tick_irq (tick s), tick_active_of_unsteady h (by decide) h1, h1]

/-- An assertion scheduled at stage 0 lowers the line in the second TICK. -/
theorem irq_second_tick {s : State} (h : s.idle = false) (h0 : hasBit s.pending .int0 = true) : (ticks 2 s).irq = true :=
  irq_after_int1 h (hasBit_tick_of_before h rfl ((afterTimers_int0 h).trans h0))

theorem irq_first_tick {s : State} (hirq : s.irq = false) (h1 : hasBit s.pending .int1 = false) :
    (ticks 1 s).irq = false := by
  simp [ticks_one, tick_irq, hirq, h1]

/-- `Int0` is the only bit the scheduling of an interrupt can set (R145). -/
theorem hasBit_scheduleInterrupt {b : PipeBit} (hb : b ≠ .int0) (s : State) :
    hasBit (scheduleInterrupt s).pending b = hasBit s.pending b := by
  rw [scheduleInterrupt_eq, hasBit_ite]
  simp [Ne.symm hb]

@[simp] theorem scheduleInterrupt_idle (s : State) : (scheduleInterrupt s).idle = s.idle := by rw [scheduleInterrupt_eq]

/-- CAUSE with a nonempty set is the recording of the causes and a moment that consults the mask (R162). -/
theorem raiseExternal_of_nonempty {c : Byte} (hc : c &&& 0x1C#8 ≠ 0#8) (s : State) : raiseExternal c s =
    scheduleInterrupt { absorb s with icr := (absorb s).icr ||| externalCauses c } := by
  have hne : externalCauses c ≠ 0#5 := mt (externalCauses_eq_zero c).mp hc
  simp [raiseExternal, hne]

/-- Settles O38: both accesses end in a moment that consults the mask, on an Active chip with the line high. -/
theorem maskWriteOrCauseAssertsOneClockLater : Obligations.MaskWriteOrCauseAssertsOneClockLater := by
  unfold Obligations.MaskWriteOrCauseAssertsOneClockLater
  intro i s hi hirq h1
  have asserts : ∀ u : State, u.idle = false → u.irq = false → hasBit u.pending .int1 = false →
      ((scheduleInterrupt u).icr &&& (scheduleInterrupt u).imr ≠ 0#5 → (scheduleInterrupt u).irq = false ∧
        (ticks 1 (scheduleInterrupt u)).irq = false ∧ (ticks 2 (scheduleInterrupt u)).irq = true) := by
    intro u hactive hhigh hnone hcause
    rw [scheduleInterrupt_icr, scheduleInterrupt_imr] at hcause
    refine ⟨by simp [hhigh], irq_first_tick (by simp [hhigh]) ?_, irq_second_tick (by simp [hactive]) ?_⟩
    · rw [hasBit_scheduleInterrupt (by decide), hnone]
    · exact hasBit_int0_scheduleInterrupt hcause hhigh
  rcases hi with ⟨v, rfl⟩ | ⟨c, rfl, hc, hook⟩
  · exact ⟨_, exec_wrImr v s, asserts _ (by simp) (by simp [hirq]) (by simp [h1])⟩
  · refine ⟨_, exec_cause_of_hook hook c, ?_⟩
    rw [raiseExternal_of_nonempty hc]
    exact asserts _ (by simp) (by simp [hirq]) (by simp [h1])

/-- A cause that is recorded and enabled makes the register and the mask meet. -/
theorem and_ne_zero_of_getLsbD {a b : Causes} {k : Nat} (ha : a.getLsbD k = true) (hb : b.getLsbD k = true) :
    a &&& b ≠ 0#5 := by
  intro hz
  have hbit := congrArg (BitVec.getLsbD · k) hz
  simp [ha, hb] at hbit

@[simp] theorem tick_imr (s : State) : (tick s).imr = s.imr := by rw [tick_frame]
@[simp] theorem tick_config (s : State) : (tick s).config = s.config := by rw [tick_frame]

/-- Settles O39: the underflow records its cause and schedules `Int1` in the same TICK. -/
theorem underflowAssertsOneClockLater : Obligations.UnderflowAssertsOneClockLater := by
  unfold Obligations.UnderflowAssertsOneClockLater
  intro x s hu hmask hirq h1
  have h := active_of_underflowDue hu
  have hcause := tick_icr_of_underflow hu
  have hhigh : (tick s).irq = false := irq_first_tick hirq h1
  have hdue : assertionDue s = true := by
    have hany : (underflowDue .a s || underflowDue .b s) = true := by cases x <;> simp [hu]
    rw [assertionDue, hany, Bool.true_and, mustSchedule_iff, tick_imr]
    exact ⟨and_ne_zero_of_getLsbD hcause hmask, hhigh⟩
  exact ⟨tick s, exec_tick s, hcause, hhigh, irq_after_int1 h (by simp [hasBit_tick_pending h, hdue])⟩

theorem icrByte_getLsbD_7 (s : State) : (icrByte s).getLsbD 7 = s.irq := by
  have all : ∀ (q : Bool) (c : Causes), (BitVec.ofBool q ++ 0#2 ++ c).getLsbD 7 = q := by decide
  exact all s.irq s.icr

/-- RD_ICR of an Active chip leaves every coming underflow in place: the acknowledge takes no bit of a timer (R147). -/
theorem underflowDue_acknowledge {s : State} (h : s.idle = false) (x : TimerId) (r : Byte) :
    underflowDue x (returnByte r (acknowledge (absorb s))) = underflowDue x s := by
  have kept : ∀ b, b ≠ .int0 → b ≠ .int1 → hasBit (acknowledge s).pending b = hasBit s.pending b := by
    intro b h0 h1
    simp [h0.symm, h1.symm]
  rw [absorb_of_active h]
  simp only [underflowDue, nextCounter, returnByte_idle, returnByte_timer, returnByte_pending, acknowledge_idle,
    acknowledge_timer, kept x.load1 (by cases x <;> decide) (by cases x <;> decide),
    kept x.count2 (by cases x <;> decide) (by cases x <;> decide),
    kept x.count3 (by cases x <;> decide) (by cases x <;> decide)]

/-- Settles O40: the acknowledge takes both stages of the assertion out of `pending`, and only an underflow schedules it again. -/
theorem acknowledgeCancelsAnAssertionInFlight : Obligations.AcknowledgeCancelsAnAssertionInFlight := by
  unfold Obligations.AcknowledgeCancelsAnAssertionInFlight
  refine ⟨fun s hirq _ => ?_, fun x s hu => ?_⟩
  · refine ⟨_, icrByte s, exec_rdIcr s, by simp, (icrByte_getLsbD_7 s).trans hirq, by simp, by simp,
      irq_first_tick (by simp) (by simp), fun hf hnone => irq_first_tick (irq_first_tick (by simp) (by simp)) ?_⟩
    rw [tick_int1 (by simp) (by simpa using hf), assertionDue, hnone .a, hnone .b]
    simp
  · refine ⟨_, exec_rdIcr s, tick_icr_of_underflow ?_⟩
    rw [underflowDue_acknowledge (active_of_underflowDue hu), hu]

/-- Settles O42: `irq_cases_of_exec`; a TICK keeps a line that is asserted. -/
theorem lineIsReleasedByAcknowledgeOrResetOnly : Obligations.LineIsReleasedByAcknowledgeOrResetOnly := by
  unfold Obligations.LineIsReleasedByAcknowledgeOrResetOnly
  refine ⟨fun i s t h hlow hhigh => ?_, fun i s hi => ?_⟩
  · rcases irq_cases_of_exec h with ⟨-, rfl⟩ | ⟨hi, -⟩ | hkept
    · exact absurd hhigh (by simp [tick_irq, hlow])
    · exact hi
    · exact absurd hhigh (by simp [hkept, hlow])
  · rcases hi with rfl | rfl <;> exact ⟨_, rfl, rfl⟩

/-- Settles O44: a cause bit that was clear is among the causes the operation raises, and `raisedCauses` names their sources. -/
theorem causesHaveTheirOwnSources : Obligations.CausesHaveTheirOwnSources := by
  unfold Obligations.CausesHaveTheirOwnSources
  intro i s t k h hclear hset
  have raised : (raisedCauses i s).getLsbD k = true := by
    rw [icr_of_exec h] at hset
    split at hset
    · simp at hset
    · rwa [BitVec.getLsbD_or, hclear, Bool.false_or] at hset
  clear hset
  cases i
  case tick =>
    rw [raisedCauses, BitVec.getLsbD_or, underflowCause_getLsbD, underflowCause_getLsbD] at raised
    simp only [Bool.or_eq_true, Bool.and_eq_true, decide_eq_true_eq] at raised
    rcases raised with ⟨hu, hk⟩ | ⟨hu, hk⟩
    · exact .inl ⟨hk, rfl, hu⟩
    · exact .inr (.inl ⟨hk, rfl, hu⟩)
  case cause c =>
    have hk : k < 5 := BitVec.lt_of_getLsbD raised
    rw [raisedCauses, externalCauses_getLsbD c hk, Bool.and_eq_true, decide_eq_true_eq] at raised
    refine .inr (.inr ⟨raised.1, by omega, c, rfl, raised.2, ?_⟩)
    rcases hook : s.config.causeHook
    · rw [exec_cause_of_no_hook hook] at h
      cases h
    · rfl
  all_goals simp [raisedCauses] at raised

end Sys2Proof.Machine

namespace Sys2Proof.Machine

/-! ### What an operation can do, said once (R43, R63) -/

/-- Nothing of the chip but port, direction and TOD registers differs, and of the environment only inputs and returned bytes. -/
structure SameChip (s t : State) : Prop where
  timer : ∀ x, t.timer x = s.timer x
  icr : t.icr = s.icr
  imr : t.imr = s.imr
  irq : t.irq = s.irq
  pcLine : t.pcLine = s.pcLine
  pending : t.pending = s.pending
  feed : t.feed = s.feed
  idle : t.idle = s.idle
  idleLeft : t.idleLeft = s.idleLeft
  config : t.config = s.config

/-- The effect of an operation that completes: ten kinds of operation act on timers, causes or pipeline, the others do not. -/
inductive Effect (s : State) : Instr → State → Prop where
  | tick : Effect s .tick (tick s)
  | reset : Effect s .reset (resetChip s)
  | rdIcr : Effect s .rdIcr (returnByte (icrByte s) (acknowledge (absorb s)))
  | rdPrb : Effect s .rdPrb (returnByte (pbBus (absorb s)) (pulsePc (absorb s)))
  | wrPrb (v : Byte) : Effect s (.wrPrb v) (pulsePc { absorb s with prb := v })
  | latchLow (x : TimerId) (v : Byte) : Effect s (latchLowWrite x v) (writeLatchLow x v s)
  | latchHigh (x : TimerId) (v : Byte) : Effect s (latchHighWrite x v) (writeLatchHigh x v s)
  | control (x : TimerId) (v : Byte) : Effect s (controlWrite x v) (writeControl x v s)
  | wrImr (v : Byte) : Effect s (.wrImr v) (scheduleInterrupt { absorb s with imr := maskAfterWrite (absorb s).imr v })
  | cause (c : Byte) (hook : s.config.causeHook = true) : Effect s (.cause c) (raiseExternal c s)
  | quiet (i : Instr) (t : State) (same : SameChip s t) : Effect s i t

theorem effect_of_exec {i : Instr} {s t : State} (h : exec i s = .next t) : Effect s i t := by
  cases i
  case cause c =>
    obtain rfl := exec_cause_next h
    cases hook : s.config.causeHook
    · rw [exec_cause_of_no_hook hook] at h
      cases h
    · exact .cause c hook
  all_goals obtain rfl := Host.Outcome.next.inj h
  case tick => exact .tick
  case reset => exact .reset
  case rdIcr => exact .rdIcr
  case rdPrb => exact .rdPrb
  case wrPrb v => exact .wrPrb v
  case wrTalo v => exact .latchLow .a v
  case wrTblo v => exact .latchLow .b v
  case wrTahi v => exact .latchHigh .a v
  case wrTbhi v => exact .latchHigh .b v
  case wrCra v => exact .control .a v
  case wrCrb v => exact .control .b v
  case wrImr v => exact .wrImr v
  all_goals exact .quiet _ _ ⟨fun x => by cases x <;> rfl, rfl, rfl, rfl, rfl, rfl, rfl, rfl, rfl, rfl⟩

section
variable (x : TimerId) (v : Byte) (s : State)

@[simp] theorem writeLatchLow_pending : (writeLatchLow x v s).pending = s.pending := by simp [writeLatchLow]
@[simp] theorem writeLatchLow_feed : (writeLatchLow x v s).feed = s.feed := by simp [writeLatchLow]
@[simp] theorem writeLatchLow_idle : (writeLatchLow x v s).idle = s.idle := by simp [writeLatchLow]
@[simp] theorem writeLatchLow_imr : (writeLatchLow x v s).imr = s.imr := by simp [writeLatchLow]
@[simp] theorem writeLatchLow_pcLine : (writeLatchLow x v s).pcLine = s.pcLine := by simp [writeLatchLow]

@[simp] theorem writeLatchHigh_pending : (writeLatchHigh x v s).pending =
    if running x s then s.pending else setBit s.pending x.load0 := by
  rw [writeLatchHigh_eq]
  split <;> simp
@[simp] theorem writeLatchHigh_feed : (writeLatchHigh x v s).feed = s.feed := by
  rw [writeLatchHigh_eq]
  split <;> simp
@[simp] theorem writeLatchHigh_idle : (writeLatchHigh x v s).idle = (s.idle && running x s) := by
  rw [writeLatchHigh_eq]
  split <;> simp_all
@[simp] theorem writeLatchHigh_imr : (writeLatchHigh x v s).imr = s.imr := by
  rw [writeLatchHigh_eq]
  split <;> simp
@[simp] theorem writeLatchHigh_pcLine : (writeLatchHigh x v s).pcLine = s.pcLine := by
  rw [writeLatchHigh_eq]
  split <;> simp

@[simp] theorem writeControl_imr : (writeControl x v s).imr = s.imr := by simp [writeControl_eq]
@[simp] theorem writeControl_pcLine : (writeControl x v s).pcLine = s.pcLine := by simp [writeControl_eq]

@[simp] theorem scheduleInterrupt_feed : (scheduleInterrupt s).feed = s.feed := by rw [scheduleInterrupt_eq]
@[simp] theorem scheduleInterrupt_pcLine : (scheduleInterrupt s).pcLine = s.pcLine := by rw [scheduleInterrupt_eq]
@[simp] theorem scheduleInterrupt_timer : (scheduleInterrupt s).timer x = s.timer x := by
  rw [scheduleInterrupt_eq]
  cases x <;> rfl

@[simp] theorem scheduleInterrupt_timerA : (scheduleInterrupt s).timerA = s.timerA := scheduleInterrupt_timer .a s
@[simp] theorem scheduleInterrupt_timerB : (scheduleInterrupt s).timerB = s.timerB := scheduleInterrupt_timer .b s

@[simp] theorem raiseExternal_feed : (raiseExternal v s).feed = s.feed := by simp [raiseExternal_eq]
@[simp] theorem raiseExternal_idle : (raiseExternal v s).idle = false := by simp [raiseExternal_eq]
@[simp] theorem raiseExternal_pcLine : (raiseExternal v s).pcLine = s.pcLine := by simp [raiseExternal_eq]
@[simp] theorem raiseExternal_imr : (raiseExternal v s).imr = s.imr := by simp [raiseExternal_eq]
@[simp] theorem raiseExternal_timer : (raiseExternal v s).timer x = reconciled x s := by
  rw [raiseExternal_eq]
  cases x <;> simp

@[simp] theorem pulsePc_feed : (pulsePc s).feed = s.feed := rfl
@[simp] theorem pulsePc_imr : (pulsePc s).imr = s.imr := rfl
@[simp] theorem pulsePc_timer : (pulsePc s).timer x = s.timer x := by cases x <;> rfl
@[simp] theorem pulsePc_timerA : (pulsePc s).timerA = s.timerA := rfl
@[simp] theorem pulsePc_timerB : (pulsePc s).timerB = s.timerB := rfl
end

/-- CAUSE adds no bit to `pending` but `Int0` (R162). -/
theorem hasBit_raiseExternal {b : PipeBit} (hb : b ≠ .int0) (c : Byte) (s : State) :
    hasBit (raiseExternal c s).pending b = hasBit s.pending b := by
  rw [raiseExternal_eq, hasBit_ite]
  simp [Ne.symm hb]

/-- A control write leaves the bits that belong to no timer (R136, R137). -/
theorem hasBit_writeControl_of_unowned {x : TimerId} {b : PipeBit} (hb : b ∈ [.int0, .int1, .pcHigh0, .pcHigh1])
    (v : Byte) (s : State) : hasBit (writeControl x v s).pending b = hasBit s.pending b := by
  rw [writeControl_pending, hasBit_pendingAfterControl]
  cases x <;> fin_cases hb <;> rfl

/-! ### Idle and the pipeline words, operation by operation (R84, R85, R172) -/

/-- Settles O49: the effects that do not appear on the list leave both words as they are. -/
theorem pipelineChangesByItsOwnOperationsOnly : Obligations.PipelineChangesByItsOwnOperationsOnly := by
  unfold Obligations.PipelineChangesByItsOwnOperationsOnly
  intro i s t h
  cases effect_of_exec h with
  | tick => simp
  | reset => exact ⟨fun _ => .inr ⟨rfl, by simp⟩, fun _ => by simp⟩
  | rdIcr => simp
  | rdPrb => simp
  | wrPrb v => simp
  | latchLow x v => simp
  | latchHigh x v =>
    cases hrun : running x s
    · refine ⟨fun _ => .inr ⟨by simp [hrun], ?_⟩, by simp⟩
      exact .inr (.inr (.inr (.inr (.inl ⟨x, v, rfl⟩))))
    · simp [hrun]
  | control x v =>
    exact ⟨fun _ => .inr ⟨by simp, .inr (.inr (.inr (.inr (.inr (.inl ⟨x, v, rfl⟩)))))⟩, fun _ => .inr (.inr ⟨x, v, rfl⟩)⟩
  | wrImr v => simp
  | cause c hook => simp
  | quiet _ _ same => simp [same.pending, same.feed]

/-- Settles O55: every other effect leaves Idle as it is. -/
theorem idleIsLeftOnlyByWakeUpAbsorbOrReset : Obligations.IdleIsLeftOnlyByWakeUpAbsorbOrReset := by
  unfold Obligations.IdleIsLeftOnlyByWakeUpAbsorbOrReset
  intro i s t h hidle hactive
  cases effect_of_exec h with
  | tick =>
    refine .inl ⟨rfl, ?_⟩
    rw [tick_of_idle hidle] at hactive
    rcases idleTick_cases s with ⟨-, -, hstay⟩ | ⟨hrun, hcount⟩
    · exact absurd hactive (by simp [hstay, hidle])
    · rw [hcount] at hactive
      have hzero : s.idleLeft - 1 = 0 := by simpa using hactive
      exact ⟨Bool.or_eq_true _ _ ▸ hrun, by omega⟩
  | reset => exact .inr (.inl rfl)
  | rdIcr => simp
  | rdPrb => simp
  | wrPrb v => simp
  | latchLow x v => simp [hidle] at hactive
  | latchHigh x v =>
    have hstop : running x s = false := by simpa [hidle] using hactive
    exact .inr (.inr (.inr (.inr (.inr (.inl ⟨x, v, rfl, hstop⟩)))))
  | control x v => exact .inr (.inr (.inr (.inr (.inr (.inr (.inl ⟨x, v, rfl⟩))))))
  | wrImr v => simp
  | cause c hook => simp
  | quiet _ _ same => exact absurd hactive (by simp [same.idle, hidle])

/-! ### The control register, operation by operation (R41) -/

theorem writeLatchLow_control (x y : TimerId) (v : Byte) (s : State) :
    ((writeLatchLow y v s).timer x).control = (s.timer x).control := by
  cases x <;> cases y <;> rfl

theorem writeLatchHigh_control (x y : TimerId) (v : Byte) (s : State) :
    ((writeLatchHigh y v s).timer x).control = (s.timer x).control := by
  rw [writeLatchHigh_eq]
  split <;> cases x <;> cases y <;> simp [State.setTimer]

/-- The four ways of a control register through an operation. -/
theorem control_cases_of_exec {i : Instr} {s t : State} (h : exec i s = .next t) (x : TimerId) :
    (t.timer x).control = (s.timer x).control ∨ (i = .reset ∧ (t.timer x).control = 0x00#8) ∨
    (∃ v, i = controlWrite x v ∧ (t.timer x).control = storedControl v) ∨
    (i = .tick ∧ stopDue x s = true ∧ (t.timer x).control = clearStart (s.timer x).control) := by
  cases effect_of_exec h with
  | tick =>
    cases hi : s.idle
    · rw [tick_control_of_active hi]
      cases hstop : stopDue x s <;> simp
    · exact .inl (congrArg Timer.control (tick_timer_of_idle hi x))
  | reset => exact .inr (.inl ⟨rfl, by cases x <;> rfl⟩)
  | rdIcr => exact .inl (by simp)
  | rdPrb => exact .inl (by simp)
  | wrPrb v => exact .inl (by cases x <;> simp)
  | latchLow y v => exact .inl (writeLatchLow_control x y v s)
  | latchHigh y v => exact .inl (writeLatchHigh_control x y v s)
  | control y v =>
    by_cases hy : x = y
    · subst hy
      exact .inr (.inr (.inl ⟨v, rfl, by rw [writeControl_timer]; rfl⟩))
    · exact .inl (by rw [writeControl_timer_other v s hy]; rfl)
  | wrImr v => exact .inl (by cases x <;> simp)
  | cause c hook => exact .inl (by simp)
  | quiet _ _ same => exact .inl (by rw [same.timer])

theorem timerMode_eq_stopped {x : TimerId} {s : State} :
    timerMode x s = .stopped ↔ ctlStart (s.timer x).control = false := by
  unfold timerMode running
  cases ctlStart (s.timer x).control <;> cases ctlOneShot (s.timer x).control <;> simp

/-- Settles O51: by `control_cases_of_exec`, since the control register alone decides the mode. -/
theorem timerStartsAndStopsAsTheStateMachineSays : Obligations.TimerStartsAndStopsAsTheStateMachineSays := by
  unfold Obligations.TimerStartsAndStopsAsTheStateMachineSays
  intro x i s t h
  rcases control_cases_of_exec h x with hsame | ⟨rfl, hzero⟩ | ⟨v, rfl, hstored⟩ | ⟨rfl, hstop, hclear⟩
  · have hmode : timerMode x t = timerMode x s := by rw [timerMode, timerMode, running, running, hsame]
    rw [hmode]
    exact ⟨fun hs ht => absurd hs ht, fun hs ht => absurd ht hs, fun _ _ hne => absurd rfl hne⟩
  · have hstopped : timerMode x t = .stopped := timerMode_eq_stopped.mpr (by rw [hzero]; rfl)
    exact ⟨fun _ ht => absurd hstopped ht, fun _ _ => .inl rfl, fun _ ht => absurd hstopped ht⟩
  · have hmode : timerMode x t = .stopped ↔ v.getLsbD 0 = false := by
      rw [timerMode_eq_stopped, hstored, ctlStart_storedControl]
      rfl
    refine ⟨fun _ ht => ⟨v, rfl, ?_⟩, fun _ ht => .inr (.inl ⟨v, rfl, hmode.mp ht⟩), fun _ _ _ => ⟨v, rfl⟩⟩
    rwa [Ne, hmode, Bool.not_eq_false] at ht
  · have hstopped : timerMode x t = .stopped := timerMode_eq_stopped.mpr (by rw [hclear, ctlStart_clearStart])
    obtain ⟨hu, hsel⟩ := Bool.and_eq_true_iff.mp hstop
    exact ⟨fun _ ht => absurd hstopped ht,
      fun _ _ => .inr (.inr ⟨rfl, hu, by simpa [oneShotSelected] using hsel⟩), fun _ ht => absurd hstopped ht⟩

/-! ### The two chains that return: handshake and interrupt (R92, R107, R150) -/

/-- A low handshake line has its return scheduled (R92). -/
def HandshakeReturns (s : State) : Prop :=
  s.pcLine = false → hasBit s.pending .pcHigh0 = true ∨ hasBit s.pending .pcHigh1 = true

/-- An enabled cause has reached the line or its assertion is scheduled (R150). -/
def CauseReachesLine (s : State) : Prop :=
  enabledCauses s ≠ 0#5 → s.irq = true ∨ hasBit s.pending .int0 = true ∨ hasBit s.pending .int1 = true

theorem HandshakeReturns.congr {s t : State} (h : HandshakeReturns s) (line : t.pcLine = s.pcLine)
    (pending : ∀ b, b = .pcHigh0 ∨ b = .pcHigh1 → hasBit t.pending b = hasBit s.pending b) : HandshakeReturns t := by
  unfold HandshakeReturns
  rw [line, pending _ (.inl rfl), pending _ (.inr rfl)]
  exact h

theorem CauseReachesLine.congr {s t : State} (h : CauseReachesLine s) (icr : t.icr = s.icr) (imr : t.imr = s.imr)
    (irq : t.irq = s.irq) (pending : ∀ b, b = .int0 ∨ b = .int1 → hasBit t.pending b = hasBit s.pending b) :
    CauseReachesLine t := by
  unfold CauseReachesLine enabledCauses
  rw [icr, imr, irq, pending _ (.inl rfl), pending _ (.inr rfl)]
  exact h

theorem pulsePc_handshakeReturns (s : State) : HandshakeReturns (pulsePc s) := fun _ => .inl (by simp)

/-- A moment that consults the mask leaves no enabled cause behind (R145). -/
theorem scheduleInterrupt_causeReachesLine (s : State) : CauseReachesLine (scheduleInterrupt s) := by
  intro hen
  cases hirq : s.irq
  · exact .inr (.inl (hasBit_int0_scheduleInterrupt (by simpa [enabledCauses] using hen) hirq))
  · exact .inl (by simp [hirq])

/-- An Idle TICK changes `idle` and `idleLeft` only (R169). -/
theorem tick_frame_of_idle {s : State} (h : s.idle = true) :
    tick s = { s with idle := (tick s).idle, idleLeft := (tick s).idleLeft } := by
  rw [tick_of_idle h]
  rcases idleTick_cases s with ⟨-, -, hstay⟩ | ⟨-, hcount⟩
  · rw [hstay]
  · rw [hcount]

theorem HandshakeReturns.tick {s : State} (h : HandshakeReturns s) : HandshakeReturns (tick s) := by
  cases hi : s.idle
  case true =>
    rw [tick_frame_of_idle hi]
    exact h
  case false =>
    intro hlow
    rw [tick_pcLine, hi] at hlow
    simp only [Bool.not_false, Bool.true_and, Bool.or_eq_false_iff] at hlow
    have h0 : hasBit s.pending .pcHigh0 = true := by simpa [hlow.2] using h hlow.1
    exact .inr (hasBit_tick_of_before hi rfl ((afterTimers_pcHigh0 hi).trans h0))

theorem CauseReachesLine.tick {s : State} (h : CauseReachesLine s) : CauseReachesLine (tick s) := by
  cases hi : s.idle
  case true =>
    rw [tick_frame_of_idle hi]
    exact h
  case false =>
    intro hen
    cases hu : underflowDue .a s || underflowDue .b s
    case true =>
      cases hirq : (Machine.tick s).irq
      case true => exact .inl rfl
      case false =>
        have hdue : assertionDue s = true := by
          rw [assertionDue, hu, Bool.true_and, mustSchedule_iff]
          exact ⟨hen, hirq⟩
        exact .inr (.inr (by simp [hasBit_tick_pending hi, hdue]))
    case false =>
      rw [Bool.or_eq_false_iff] at hu
      have hicr : (Machine.tick s).icr = s.icr := by simp [tick_icr, raisedCauses, underflowCause, hu.1, hu.2]
      rw [enabledCauses, hicr, tick_imr] at hen
      rcases h hen with hirq | h0 | h1
      · exact .inl (by simp [tick_irq, hirq])
      · exact .inr (.inr (hasBit_tick_of_before hi rfl ((afterTimers_int0 hi).trans h0)))
      · exact .inl (by simp [tick_irq, hi, h1])

theorem HandshakeReturns.exec {i : Instr} {s t : State} (hs : HandshakeReturns s) (h : exec i s = .next t) :
    HandshakeReturns t := by
  cases effect_of_exec h with
  | tick => exact hs.tick
  | reset => exact fun hlow => absurd hlow (by simp [resetChip, State.reset])
  | rdIcr => exact hs.congr (by simp) (by rintro b (rfl | rfl) <;> simp)
  | rdPrb => exact pulsePc_handshakeReturns _
  | wrPrb v => exact pulsePc_handshakeReturns _
  | latchLow x v => exact hs.congr (by simp) (by simp)
  | latchHigh x v =>
    refine hs.congr (by simp) ?_
    rintro b (rfl | rfl) <;> cases x <;> simp [hasBit_ite, TimerId.load0]
  | control x v =>
    refine hs.congr (by simp) ?_
    rintro b (rfl | rfl) <;> exact hasBit_writeControl_of_unowned (by simp) v s
  | wrImr v =>
    refine hs.congr (by simp) ?_
    rintro b (rfl | rfl) <;> exact (hasBit_scheduleInterrupt (by decide) _).trans (by simp)
  | cause c hook =>
    refine hs.congr (by simp) ?_
    rintro b (rfl | rfl) <;> exact hasBit_raiseExternal (by decide) c s
  | quiet _ _ same => exact hs.congr same.pcLine (by simp [same.pending])

theorem CauseReachesLine.exec {i : Instr} {s t : State} (hs : CauseReachesLine s) (h : exec i s = .next t) :
    CauseReachesLine t := by
  cases effect_of_exec h with
  | tick => exact hs.tick
  | reset => exact fun hen => absurd (by simp [enabledCauses, resetChip, State.reset]) hen
  | rdIcr => exact fun hen => absurd hen (by simp [enabledCauses])
  | rdPrb => exact hs.congr (by simp) (by simp) (by simp) (by rintro b (rfl | rfl) <;> simp)
  | wrPrb v => exact hs.congr (by simp) (by simp) (by simp) (by rintro b (rfl | rfl) <;> simp)
  | latchLow x v => exact hs.congr (by simp) (by simp) (by simp) (by simp)
  | latchHigh x v =>
    refine hs.congr (by simp) (by simp) (by simp) ?_
    rintro b (rfl | rfl) <;> cases x <;> simp [hasBit_ite, TimerId.load0]
  | control x v =>
    refine hs.congr (by simp) (by simp) (by simp) ?_
    rintro b (rfl | rfl) <;> exact hasBit_writeControl_of_unowned (by simp) v s
  | wrImr v => exact scheduleInterrupt_causeReachesLine _
  | cause c hook =>
    by_cases hc : c &&& 0x1C#8 = 0#8
    · have hempty : externalCauses c = 0#5 := (externalCauses_eq_zero c).mpr hc
      exact hs.congr (by simp [hempty]) (by simp) (by simp) (by simp [raiseExternal_eq, hempty])
    · rw [raiseExternal_of_nonempty hc]
      exact scheduleInterrupt_causeReachesLine _
  | quiet _ _ same => exact hs.congr same.icr same.imr same.irq (by simp [same.pending])

/-- A step keeps what every operation keeps, if the stimulus sequence has no part in it. -/
theorem step_keeps {p : State → Prop} (stimulus : ∀ s rest, p s → p { s with stimulus := rest })
    (operation : ∀ i s t, p s → exec i s = .next t → p t) {s t : State} (hs : p s) (h : step s = .next t) : p t := by
  rcases step_next_cases h with ⟨-, rfl⟩ | ⟨w, rest, i, -, -, hexec⟩
  · exact hs
  · exact operation i _ t (stimulus s rest hs) hexec

/-- Settles O15: `HandshakeReturns` is kept by every operation. -/
theorem lowHandshakeLineIsOnItsWayUp : Obligations.LowHandshakeLineIsOnItsWayUp := by
  unfold Obligations.LowHandshakeLineIsOnItsWayUp
  intro s t hs h
  exact step_keeps (p := HandshakeReturns) (fun _ _ hs => hs) (fun _ _ _ hs h => hs.exec h) hs h

/-- Settles O45: `CauseReachesLine` is kept by every operation. -/
theorem enabledCauseReachesTheLine : Obligations.EnabledCauseReachesTheLine := by
  unfold Obligations.EnabledCauseReachesTheLine
  intro s t hs h
  exact step_keeps (p := CauseReachesLine) (fun _ _ hs => hs) (fun _ _ _ hs h => hs.exec h) hs h

/-- Settles O52: the pin is the output bit of a timer with PBON, which the invariant ties to the toggle bit or to the pulse. -/
theorem timerOwnedPinShowsItsMode : Obligations.TimerOwnedPinShowsItsMode := by
  unfold Obligations.TimerOwnedPinShowsItsMode
  have output : ∀ (x : TimerId) (s : State), TimerInv x s → (s.timer x).control.getLsbD 1 = true →
      (s.timer x).output =
        if (s.timer x).control.getLsbD 2 then (s.timer x).toggle else hasBit s.pending x.pbLow1 := by
    intro x s hx hpb
    split
    case isTrue hmode => exact hx.toggle_output hpb hmode
    case isFalse hmode => exact hx.pulse_output hpb (Bool.not_eq_true _ ▸ hmode)
  refine fun s h => ⟨fun hpb => ?_, fun hpb => ?_⟩
  · rw [pbOut_getLsbD_6, ctlPbOn, if_pos hpb]
    exact output .a s h.timer_a hpb
  · rw [pbOut_getLsbD_7, ctlPbOn, if_pos hpb]
    exact output .b s h.timer_b hpb

/-- A latch changes only by its own two writes and by RESET (R19). -/
theorem latch_cases_of_exec {i : Instr} {s t : State} (h : exec i s = .next t) (x : TimerId) :
    (t.timer x).latch = (s.timer x).latch ∨ i = .reset ∨ ∃ v, i = latchLowWrite x v ∨ i = latchHighWrite x v := by
  cases effect_of_exec h with
  | tick => exact .inl (tick_latch x s)
  | reset => exact .inr (.inl rfl)
  | rdIcr => exact .inl (by simp)
  | rdPrb => exact .inl (by simp)
  | wrPrb v => exact .inl (by cases x <;> simp)
  | latchLow y v =>
    by_cases hy : x = y
    · exact .inr (.inr ⟨v, .inl (by rw [hy])⟩)
    · exact .inl (by rw [writeLatchLow, State.timer_setTimer_other _ _ hy])
  | latchHigh y v =>
    by_cases hy : x = y
    · exact .inr (.inr ⟨v, .inr (by rw [hy])⟩)
    · refine .inl ?_
      rw [writeLatchHigh]
      split
      · rw [State.timer_setTimer_other _ _ hy]
      · rw [schedule_timer, absorb_timer, reconciled_latch, State.timer_setTimer_other _ _ hy]
  | control y v =>
    refine .inl ?_
    by_cases hy : x = y
    · rw [hy, writeControl_timer, timerAfterControl]
    · rw [writeControl_timer_other v s hy, reconciled_latch]
  | wrImr v => exact .inl (by cases x <;> simp)
  | cause c hook => exact .inl (by simp)
  | quiet _ _ same => exact .inl (by rw [same.timer])

/-- Settles O48: the latches by `latch_cases_of_exec`; every other register by the record update that each operation is. -/
theorem registersChangeByTheirOwnWritesOnly : Obligations.RegistersChangeByTheirOwnWritesOnly := by
  unfold Obligations.RegistersChangeByTheirOwnWritesOnly
  intro i s t h
  have latch : ∀ x, (t.timer x).latch ≠ (s.timer x).latch →
      i = .reset ∨ ∃ v, i = latchLowWrite x v ∨ i = latchHighWrite x v :=
    fun x hne => (latch_cases_of_exec h x).resolve_left hne
  simp only [and_iff_right latch]
  clear latch
  cases i
  case cause c =>
    obtain rfl := exec_cause_next h
    simp [raiseExternal_eq]
  all_goals obtain rfl := Host.Outcome.next.inj h
  case tick =>
    rw [tick_frame]
    simp
  case reset => simp [resetChip]
  case rdPrb | wrPrb => simp [pulsePc]
  case wrTalo v | wrTblo v => simp [writeLatchLow]
  case wrTahi v | wrTbhi v =>
    rw [writeLatchHigh_eq]
    split <;> simp
  case wrCra v | wrCrb v => simp [writeControl_eq]
  case wrImr => simp [scheduleInterrupt_eq]
  all_goals simp

end Sys2Proof.Machine

namespace Sys2Proof.Machine

/-! ### The invariant of every reachable state (R40, R93, R150, R183) -/

/-- The invariant without its two clauses on the chains that return, which hold step by step on their own (O15, O45). -/
structure CoreInv (s : State) : Prop where
  config_wf : s.config.wf
  feed_used : s.feed &&& ~~~feedBits = 0#32
  pending_used : s.pending &&& ~~~usedBits = 0#32
  timer : ∀ x, TimerInv x s
  line_has_cause : s.irq = true ∨ hasBit s.pending .int0 = true ∨ hasBit s.pending .int1 = true → s.icr ≠ 0#5
  external_causes_need_hook : s.config.causeHook = false → s.icr.extractLsb' 2 3 = 0#3
  idle_steady : s.idle = true → steady s.pending s.feed = true
  idle_needs_enable : s.config.idleEnable = false → s.idle = false
  idle_left : s.idle = false ∨ (hasBit s.pending .countA3 = false ∧ hasBit s.pending .countB3 = false) → s.idleLeft = 0

theorem inv_iff {s : State} : s.Inv ↔ CoreInv s ∧ CauseReachesLine s ∧ HandshakeReturns s := by
  constructor
  · intro h
    exact ⟨⟨h.config_wf, h.feed_used, h.pending_used, TimerId.forall_iff.mpr ⟨h.timer_a, h.timer_b⟩, h.line_has_cause,
      h.external_causes_need_hook, h.idle_steady, h.idle_needs_enable, h.idle_left⟩,
      h.enabled_cause_reaches_line, h.handshake_returns⟩
  · rintro ⟨h, hcause, hshake⟩
    exact ⟨h.config_wf, h.feed_used, h.pending_used, h.timer .a, h.timer .b, hcause, h.line_has_cause,
      h.external_causes_need_hook, hshake, h.idle_steady, h.idle_needs_enable, h.idle_left⟩

/-- The timer part of the invariant reads no latch, and of `pending` and `feed` only bits of its own timer; a counter may grow, as
`Absorb` lets it. -/
theorem TimerInv.congr {x : TimerId} {s t : State} (hx : TimerInv x s)
    (registers : (t.timer x).control = (s.timer x).control ∧ (t.timer x).toggle = (s.timer x).toggle ∧
      (t.timer x).output = (s.timer x).output)
    (counter : hasBit s.pending x.count3 = true → (s.timer x).counter.toNat ≤ (t.timer x).counter.toNat)
    (feed : hasBit t.feed x.count0 = hasBit s.feed x.count0 ∧ hasBit t.feed x.oneShot = hasBit s.feed x.oneShot)
    (pending : ∀ b, b = x.count3 ∨ b = x.load1 ∨ b = x.pbLow0 ∨ b = x.pbLow1 → hasBit t.pending b = hasBit s.pending b)
    (idle : t.idle = true → hasBit s.pending x.count3 = true →
      1 ≤ (t.timer x).counter.toNat ∧ 1 ≤ t.idleLeft ∧ (t.timer x).counter.toNat + t.idleLeft ≤ 65535) :
    TimerInv x t := by
  obtain ⟨control, toggle, output⟩ := registers
  have count3 := pending x.count3 (by simp)
  have load1 := pending x.load1 (by simp)
  have pbLow0 := pending x.pbLow0 (by simp)
  have pbLow1 := pending x.pbLow1 (by simp)
  refine ⟨?_, ?_, ?_, ?_, ?_, ?_, ?_, ?_, ?_⟩
  · rw [control]; exact hx.load_not_stored
  · rw [feed.1, control]; exact hx.feed_count
  · rw [feed.2, control]; exact hx.feed_oneShot
  · rw [count3, load1]
    intro hc hl hz
    have hle := counter hc
    rw [hz] at hle
    exact hx.no_decrement_of_zero hc hl (BitVec.eq_of_toNat_eq (Nat.le_zero.mp hle))
  · rw [pbLow1, control]; exact hx.pulse_in_flight
  · rw [pbLow0]; exact hx.pulse_shifted
  · rw [control, output, pbLow1]; exact hx.pulse_output
  · rw [control, output, toggle]; exact hx.toggle_output
  · rw [count3]; exact idle

/-! ### The invariant through a TICK -/

/-- An underflow raises its own cause only, so it never touches the external ones (R125). -/
theorem raisedCauses_tick_external (s : State) : (raisedCauses .tick s).extractLsb' 2 3 = 0#3 := by
  have own : ∀ x, underflowCause x s = 0#5 ∨ underflowCause x s = BitVec.twoPow 5 x.cause.code := by
    intro x; unfold underflowCause; split <;> simp
  unfold raisedCauses
  rcases own .a with ha | ha <;> rcases own .b with hb | hb <;> simp only [ha, hb] <;> decide

theorem TimerInv.tick_of_active {s : State} (h : CoreInv s) (ha : s.idle = false) {x : TimerId} (hx : TimerInv x s) :
    TimerInv x (tick s) := by
  have hf := h.feed_used
  have hpulse : (s.timer x).output = true → ctlPbOn (s.timer x).control = true →
      ctlToggleMode (s.timer x).control = false → hasBit s.pending x.pbLow1 = true :=
    fun ho hp ht => (hx.pulse_output hp ht).symm.trans ho
  refine ⟨?load, ?feedCount, ?feedOneShot, ?noZero, ?pulseFlight, tick_pbLow0 ha hf x, ?pulseOut, ?toggleOut, ?idle⟩
  case load =>
    rw [tick_control_of_active ha]
    split <;> simp [hx.load_not_stored]
  case feedCount =>
    rw [tick_feed_count0 ha, tick_control_of_active ha, hx.feed_count]
    cases stopDue x s <;> simp
  case feedOneShot =>
    rw [tick_feed_oneShot ha, tick_control_of_active ha, hx.feed_oneShot]
    split <;> simp
  case noZero =>
    intro hcount hload
    have hne : nextCounter x s ≠ 0#16 := by
      intro hz
      rw [tick_count3 ha hf, Bool.and_eq_true] at hcount
      rw [tick_load1 ha hf, Bool.or_eq_false_iff] at hload
      exact absurd ((underflowDue_iff ha x).mpr ⟨hz, hcount.1⟩) (by simp [hload.2])
    rcases tick_idle_cases ha with ⟨-, -, hc⟩ | ⟨-, -, -, ⟨hnone, -⟩ | ⟨-, -, hrun⟩⟩
    · rwa [hc x]
    · exact absurd hcount (by simpa [counting] using hnone x)
    · obtain ⟨hle, hsum⟩ := hrun x hcount
      intro hz
      rw [hz] at hsum
      simp at hsum
      omega
  case pulseFlight =>
    rw [tick_pbLow1 ha hf, hx.pulse_shifted, startsPulse, tick_ctlPbOn ha, tick_ctlToggleMode ha]
    simp
  case pulseOut =>
    rw [tick_ctlPbOn ha, tick_ctlToggleMode ha, tick_output_of_active ha, tick_pbLow1 ha hf, hx.pulse_shifted, startsPulse]
    intro hp ht
    rw [hx.pulse_output hp ht]
    simp [hp, ht]
  case toggleOut =>
    rw [tick_ctlPbOn ha, tick_ctlToggleMode ha, tick_output_of_active ha, tick_toggle_of_active ha]
    intro hp ht
    have hnone : hasBit s.pending x.pbLow1 = false :=
      Bool.eq_false_iff.mpr fun hlow => absurd ht (by simp [(hx.pulse_in_flight hlow).2])
    rw [hx.toggle_output hp ht, hnone]
    simp [hp, ht]
  case idle =>
    intro hidle hcount
    rcases tick_idle_cases ha with ⟨hactive, -⟩ | ⟨-, -, -, ⟨hnone, -⟩ | ⟨hmin, -, hrun⟩⟩
    · exact absurd hidle (by simp [hactive])
    · exact absurd hcount (by simpa [counting] using hnone x)
    · obtain ⟨hle, hsum⟩ := hrun x hcount
      have hwf := h.config_wf
      have hlt := (nextCounter x s).isLt
      omega

theorem CoreInv.tick_of_active {s : State} (h : CoreInv s) (ha : s.idle = false) : CoreInv (tick s) := by
  have hf := h.feed_used
  refine ⟨by simpa using h.config_wf, tick_feed_used ha hf, tick_pending_used ha hf,
    fun x => .tick_of_active h ha (h.timer x), ?cause, ?external, ?steady, ?enable, ?left⟩
  case cause =>
    intro hline
    refine tick_icr_ne_zero ?_
    rw [tick_int0 ha hf, tick_int1 ha hf, tick_irq, ha] at hline
    simp only [Bool.not_false, Bool.true_and, Bool.or_eq_true, Bool.false_eq_true, false_or] at hline
    rcases hline with (hirq | h1) | h0 | hdue
    · exact .inl (h.line_has_cause (.inl hirq))
    · exact .inl (h.line_has_cause (.inr (.inr h1)))
    · exact .inl (h.line_has_cause (.inr (.inl h0)))
    · exact .inr hdue
  case external =>
    rw [tick_config, tick_icr, BitVec.extractLsb'_or, raisedCauses_tick_external]
    intro hhook
    simp [h.external_causes_need_hook hhook]
  case steady =>
    rcases tick_idle_cases ha with ⟨hactive, -⟩ | ⟨-, -, hsteady, -⟩
    · exact fun hidle => absurd hidle (by simp [hactive])
    · exact fun _ => hsteady
  case enable =>
    rw [tick_config]
    intro hdis
    rcases tick_idle_cases ha with ⟨hactive, -⟩ | ⟨-, henable, -⟩
    · exact hactive
    · exact absurd henable (by simp [hdis])
  case left =>
    rcases tick_idle_cases ha with ⟨-, hkeep, -⟩ | ⟨hidle, -, -, ⟨-, hzero⟩ | ⟨-, ⟨x, hx, -⟩, -⟩⟩
    · exact fun _ => hkeep.trans (h.idle_left (.inl ha))
    · exact fun _ => hzero
    · rintro (hactive | ⟨hA, hB⟩)
      · exact absurd hactive (by simp [hidle])
      · cases x <;> simp_all [counting, TimerId.count3]

theorem CoreInv.tick_of_idle {s : State} (h : CoreInv s) (hi : s.idle = true) : CoreInv (tick s) := by
  rw [Machine.tick_of_idle hi]
  rcases idleTick_cases s with ⟨-, -, hstay⟩ | ⟨hrun, hcount⟩
  · rwa [hstay]
  rw [hcount]
  refine ⟨h.config_wf, h.feed_used, h.pending_used, fun x => ?timer, h.line_has_cause, h.external_causes_need_hook,
    fun _ => h.idle_steady hi, fun hdis => ?enable, ?left⟩
  case timer =>
    refine (h.timer x).congr ⟨rfl, rfl, rfl⟩ (fun _ => Nat.le_refl _) ⟨rfl, rfl⟩ (fun _ _ => rfl) fun hleft hc => ?_
    obtain ⟨hcounter, -, hsum⟩ := (h.timer x).idle_counter hi hc
    exact ⟨hcounter, Nat.pos_of_ne_zero (of_decide_eq_true hleft),
      Nat.le_trans (Nat.add_le_add_left (Nat.sub_le _ _) _) hsum⟩
  case enable => exact absurd (h.idle_needs_enable hdis) (by simp [hi])
  case left =>
    rintro (hactive | ⟨hA, hB⟩)
    · simpa using hactive
    · simp [counting, TimerId.count3, hA, hB] at hrun

theorem CoreInv.tick {s : State} (h : CoreInv s) : CoreInv (tick s) := by
  cases hi : s.idle
  · exact h.tick_of_active hi
  · exact h.tick_of_idle hi

/-! ### The invariant through the accesses -/

theorem setBit_and_eq_zero {p m : PipeWord} {b : PipeBit} (h : p &&& m = 0#32) (hb : b.mask &&& m = 0#32) :
    setBit p b &&& m = 0#32 := by
  rw [setBit, BitVec.and_or_distrib_right, h, hb, BitVec.zero_or]

theorem clearBit_and_eq_zero {p m : PipeWord} (b : PipeBit) (h : p &&& m = 0#32) : clearBit p b &&& m = 0#32 := by
  rw [clearBit, BitVec.and_assoc, BitVec.and_comm (~~~b.mask), ← BitVec.and_assoc, h, BitVec.zero_and]

theorem setBit_used {p : PipeWord} (h : p &&& ~~~usedBits = 0#32) (b : PipeBit) : setBit p b &&& ~~~usedBits = 0#32 :=
  setBit_and_eq_zero h (by cases b <;> decide)

theorem ite_and_eq_zero {c : Prop} [Decidable c] {p q m : PipeWord} (hp : p &&& m = 0#32) (hq : q &&& m = 0#32) :
    (if c then p else q) &&& m = 0#32 := by
  split <;> assumption

theorem pendingAfterControl_used {p : PipeWord} (h : p &&& ~~~usedBits = 0#32) (x : TimerId) (v : Byte) :
    pendingAfterControl x v p &&& ~~~usedBits = 0#32 := by
  have count : (if countsSystemClock x v then setBit (setBit p x.count0) x.count1
      else clearBit (clearBit p x.count0) x.count1) &&& ~~~usedBits = 0#32 :=
    ite_and_eq_zero (setBit_used (setBit_used h _) _) (clearBit_and_eq_zero _ (clearBit_and_eq_zero _ h))
  have oneShot := ite_and_eq_zero (c := ctlOneShot v) (setBit_used count x.oneShot) count
  have load := ite_and_eq_zero (c := ctlLoad v) (setBit_used oneShot x.load0) oneShot
  exact ite_and_eq_zero load (clearBit_and_eq_zero _ (clearBit_and_eq_zero _ load))

theorem feedAfterControl_used {f : PipeWord} (h : f &&& ~~~feedBits = 0#32) (x : TimerId) (v : Byte) :
    feedAfterControl x v f &&& ~~~feedBits = 0#32 := by
  have masks : x.count0.mask &&& ~~~feedBits = 0#32 ∧ x.oneShot.mask &&& ~~~feedBits = 0#32 := by cases x <;> decide
  have count : (if countsSystemClock x v then setBit f x.count0 else clearBit f x.count0) &&& ~~~feedBits = 0#32 :=
    ite_and_eq_zero (setBit_and_eq_zero h masks.1) (clearBit_and_eq_zero _ h)
  exact ite_and_eq_zero (setBit_and_eq_zero count masks.2) (clearBit_and_eq_zero _ count)

theorem timerInv_reset (x : TimerId) : TimerInv x State.reset := by
  cases x <;> constructor <;> decide

theorem coreInv_resetChip {s : State} (h : s.config.wf) : CoreInv (resetChip s) where
  config_wf := h
  feed_used := show State.reset.feed &&& ~~~feedBits = 0#32 by decide
  pending_used := show State.reset.pending &&& ~~~usedBits = 0#32 by decide
  timer x := (timerInv_reset x).congr (by cases x <;> exact ⟨rfl, rfl, rfl⟩) (by cases x <;> exact fun _ => Nat.le_refl _)
    ⟨rfl, rfl⟩ (fun _ _ => rfl) nofun
  line_has_cause := show State.reset.irq = true ∨ hasBit State.reset.pending .int0 = true ∨
    hasBit State.reset.pending .int1 = true → State.reset.icr ≠ 0#5 by decide
  external_causes_need_hook _ := show State.reset.icr.extractLsb' 2 3 = 0#3 by decide
  idle_steady := nofun
  idle_needs_enable _ := rfl
  idle_left _ := rfl

/-- The logical counter of a running timer never wraps (R183). -/
theorem TimerInv.logicalCounter_toNat {x : TimerId} {s : State} (hx : TimerInv x s) (hi : s.idle = true)
    (hc : hasBit s.pending x.count3 = true) :
    (logicalCounter x s).toNat = (s.timer x).counter.toNat + s.idleLeft := by
  obtain ⟨-, -, hsum⟩ := hx.idle_counter hi hc
  have hlogical : logicalCounter x s = (s.timer x).counter + BitVec.ofNat 16 s.idleLeft := by
    simp [logicalCounter, counting, hi, hc]
  rw [hlogical, BitVec.toNat_add, BitVec.toNat_ofNat]
  omega

theorem TimerInv.absorb {x : TimerId} {s : State} (hx : TimerInv x s) : TimerInv x (absorb s) := by
  refine hx.congr (by simp) (fun hc => ?_) (by simp) (by simp) (by simp)
  cases hi : s.idle
  · rw [absorb_of_active hi]
  · rw [absorb_timer, reconciled_counter, hx.logicalCounter_toNat hi hc]
    exact Nat.le_add_right _ _

theorem CoreInv.absorb {s : State} (h : CoreInv s) : CoreInv (absorb s) := by
  refine ⟨by simpa using h.config_wf, by simpa using h.feed_used, by simpa using h.pending_used,
    fun x => (h.timer x).absorb, by simpa using h.line_has_cause, by simpa using h.external_causes_need_hook, by simp,
    by simp, fun _ => ?_⟩
  cases hi : s.idle
  · rw [absorb_of_active hi]
    exact h.idle_left (.inl hi)
  · simp [absorb_eq, hi]

/-- A state that differs in latches and in what the invariant does not read. -/
theorem CoreInv.congr {s t : State} (h : CoreInv s)
    (registers : ∀ x, (t.timer x).control = (s.timer x).control ∧ (t.timer x).toggle = (s.timer x).toggle ∧
      (t.timer x).output = (s.timer x).output)
    (counter : ∀ x, (t.timer x).counter = (s.timer x).counter) (icr : t.icr = s.icr) (irq : t.irq = s.irq)
    (pending : t.pending = s.pending) (feed : t.feed = s.feed) (idle : t.idle = s.idle) (idleLeft : t.idleLeft = s.idleLeft)
    (config : t.config = s.config) : CoreInv t where
  config_wf := config ▸ h.config_wf
  feed_used := feed ▸ h.feed_used
  pending_used := pending ▸ h.pending_used
  timer x := (h.timer x).congr (registers x) (by simp [counter x]) (by simp [feed]) (by simp [pending])
    (by rw [counter x, idle, idleLeft]; exact (h.timer x).idle_counter)
  line_has_cause := by rw [irq, pending, icr]; exact h.line_has_cause
  external_causes_need_hook := by rw [config, icr]; exact h.external_causes_need_hook
  idle_steady := by rw [idle, pending, feed]; exact h.idle_steady
  idle_needs_enable := by rw [config, idle]; exact h.idle_needs_enable
  idle_left := by rw [idle, pending, idleLeft]; exact h.idle_left

/-- On an Active chip the causes, the line and the bits of `pending` that no clause on a timer reads may change, as long as the
line has a cause. -/
theorem CoreInv.of_active {s t : State} (h : CoreInv s) (ha : s.idle = false)
    (timer : ∀ x, t.timer x = s.timer x) (feed : t.feed = s.feed) (idle : t.idle = s.idle) (idleLeft : t.idleLeft = s.idleLeft)
    (config : t.config = s.config) (used : t.pending &&& ~~~usedBits = 0#32)
    (pending : ∀ x : TimerId, ∀ b, b = x.count3 ∨ b = x.load1 ∨ b = x.pbLow0 ∨ b = x.pbLow1 →
      hasBit t.pending b = hasBit s.pending b)
    (cause : t.irq = true ∨ hasBit t.pending .int0 = true ∨ hasBit t.pending .int1 = true → t.icr ≠ 0#5)
    (external : s.config.causeHook = false → t.icr.extractLsb' 2 3 = 0#3) : CoreInv t where
  config_wf := config ▸ h.config_wf
  feed_used := feed ▸ h.feed_used
  pending_used := used
  timer x := (h.timer x).congr (by simp [timer x]) (by simp [timer x]) (by simp [feed]) (pending x) (by simp [idle, ha])
  line_has_cause := cause
  external_causes_need_hook := config ▸ external
  idle_steady hi := absurd hi (by simp [idle, ha])
  idle_needs_enable _ := idle.trans ha
  idle_left _ := idleLeft.trans (h.idle_left (.inl ha))

/-- The bits that the clauses on timer X read are neither an interrupt bit, nor a handshake bit, nor a load at stage 0. -/
theorem timerBit_ne {x y : TimerId} {b : PipeBit} (hb : b = x.count3 ∨ b = x.load1 ∨ b = x.pbLow0 ∨ b = x.pbLow1) :
    .int0 ≠ b ∧ .int1 ≠ b ∧ .pcHigh0 ≠ b ∧ y.load0 ≠ b := by
  rcases hb with rfl | rfl | rfl | rfl <;> cases x <;> cases y <;> decide

theorem CoreInv.pulsePc {s : State} (h : CoreInv s) (ha : s.idle = false) : CoreInv (pulsePc s) := by
  refine h.of_active ha (by simp) rfl rfl rfl rfl (setBit_used h.pending_used _) (fun x b hb => ?_) ?_
    h.external_causes_need_hook
  · simp [(timerBit_ne (y := x) hb).2.2.1]
  · simpa using h.line_has_cause

theorem CoreInv.scheduleLoad {s : State} (h : CoreInv s) (ha : s.idle = false) (y : TimerId) :
    CoreInv (schedule y.load0 s) := by
  refine h.of_active ha (by simp) rfl rfl rfl rfl (setBit_used h.pending_used _) (fun x b hb => ?_) ?_
    h.external_causes_need_hook
  · simp [(timerBit_ne (y := y) hb).2.2.2]
  · have hi : y.load0 ≠ .int0 ∧ y.load0 ≠ .int1 := by cases y <;> decide
    simpa [hi] using h.line_has_cause

theorem CoreInv.acknowledge {s : State} (h : CoreInv s) (ha : s.idle = false) : CoreInv (acknowledge s) := by
  refine h.of_active ha (by simp) rfl rfl rfl rfl (clearBit_and_eq_zero _ (clearBit_and_eq_zero _ h.pending_used)) (fun x b hb => ?_)
    (by simp) (by simp)
  obtain ⟨h0, h1, -⟩ := timerBit_ne (y := x) hb
  simp [h0, h1]

/-- A moment that consults the mask, after causes were added or the mask was changed (R145). -/
theorem CoreInv.scheduleInterrupt {s u : State} (h : CoreInv s) (ha : s.idle = false) (timer : ∀ x, u.timer x = s.timer x)
    (feed : u.feed = s.feed) (idle : u.idle = s.idle) (idleLeft : u.idleLeft = s.idleLeft) (config : u.config = s.config)
    (pending : u.pending = s.pending) (irq : u.irq = s.irq) (icr : s.icr ≠ 0#5 → u.icr ≠ 0#5)
    (external : s.config.causeHook = false → u.icr.extractLsb' 2 3 = 0#3) : CoreInv (scheduleInterrupt u) := by
  refine h.of_active ha (fun x => by simp [timer x]) (by simp [feed]) (by simp [idle]) ?_ ?_ ?_ (fun x b hb => ?_) ?_
    (by simpa using external)
  · rw [scheduleInterrupt_eq]; exact idleLeft
  · rw [scheduleInterrupt_eq]; exact config
  · rw [scheduleInterrupt_eq, pending]
    dsimp only
    split
    · exact setBit_used h.pending_used _
    · exact h.pending_used
  · rw [hasBit_scheduleInterrupt (timerBit_ne (y := x) hb).1.symm, pending]
  · rw [scheduleInterrupt_irq, irq, scheduleInterrupt_icr, hasBit_scheduleInterrupt (b := .int1) (by decide), pending]
    rintro (hirq | h0 | h1)
    · exact icr (h.line_has_cause (.inl hirq))
    · rw [scheduleInterrupt_eq, hasBit_ite, pending] at h0
      split at h0
      · rename_i hdue
        exact fun hz => ((mustSchedule_iff u).mp hdue).1 (by rw [hz, BitVec.zero_and])
      · exact icr (h.line_has_cause (.inr (.inl h0)))
    · exact icr (h.line_has_cause (.inr (.inr h1)))

/-- The record that a control write leaves meets every clause on its timer (R136, R137, R140 to R143). -/
theorem TimerInv.writeControl_same {x : TimerId} {s : State} (hx : TimerInv x s) (ha : s.idle = false) (v : Byte) :
    TimerInv x (writeControl x v s) := by
  have unowned : ∀ b, b = x.count3 ∨ b = x.load1 →
      hasBit (writeControl x v s).pending b = hasBit s.pending b := by
    rintro b (rfl | rfl) <;> rw [writeControl_pending, hasBit_pendingAfterControl] <;> cases x <;> rfl
  have pulse : ∀ b, b = x.pbLow0 ∨ b = x.pbLow1 →
      hasBit (writeControl x v s).pending b = (hasBit s.pending b && selectsPulse v) := by
    rintro b (rfl | rfl) <;> rw [writeControl_pending, hasBit_pendingAfterControl] <;> cases x <;> rfl
  have hcounter : logicalCounter x s = (s.timer x).counter := logicalCounter_of_active x ha
  constructor
  case load_not_stored => simp [timerAfterControl]
  case feed_count => simp [timerAfterControl, hasBit_feedAfterControl]
  case feed_oneShot =>
    have hne : x.oneShot ≠ x.count0 := by cases x <;> decide
    simp [timerAfterControl, hasBit_feedAfterControl, hne]
  case no_decrement_of_zero =>
    rw [unowned _ (.inl rfl), unowned _ (.inr rfl), writeControl_timer, timerAfterControl, hcounter]
    exact hx.no_decrement_of_zero
  case pulse_in_flight =>
    rw [pulse _ (.inr rfl), writeControl_timer, timerAfterControl, selectsPulse]
    simp
  case pulse_shifted => rw [pulse _ (.inl rfl), hx.pulse_shifted, Bool.false_and]
  case pulse_output =>
    rw [pulse _ (.inr rfl), writeControl_timer, timerAfterControl, selectsPulse]
    intro hp ht
    simp_all
  case toggle_output =>
    rw [writeControl_timer, timerAfterControl, selectsPulse]
    intro hp ht
    simp_all
  case idle_counter => exact fun hidle => absurd hidle (by simp)

/-- A control write leaves the other timer's clauses alone (R136, R137). -/
theorem TimerInv.writeControl_other {x y : TimerId} (hy : y ≠ x) {s : State} (h : TimerInv y s) (ha : s.idle = false)
    (v : Byte) : TimerInv y (writeControl x v s) := by
  have hcounter : logicalCounter y s = (s.timer y).counter := logicalCounter_of_active y ha
  have pair : (x = .a ∧ y = .b) ∨ (x = .b ∧ y = .a) := by cases x <;> cases y <;> simp at hy ⊢
  refine h.congr ?_ ?_ ?_ ?_ (by simp)
  · rw [writeControl_timer_other v s hy]
    exact ⟨rfl, rfl, rfl⟩
  · rw [writeControl_timer_other v s hy, reconciled_counter, hcounter]
    exact fun _ => Nat.le_refl _
  · rw [writeControl_feed, hasBit_feedAfterControl, hasBit_feedAfterControl]
    rcases pair with ⟨rfl, rfl⟩ | ⟨rfl, rfl⟩ <;> exact ⟨rfl, rfl⟩
  · rintro b (rfl | rfl | rfl | rfl) <;> rw [writeControl_pending, hasBit_pendingAfterControl] <;>
      rcases pair with ⟨rfl, rfl⟩ | ⟨rfl, rfl⟩ <;> rfl

theorem CoreInv.writeControl {s : State} (h : CoreInv s) (ha : s.idle = false) (x : TimerId) (v : Byte) :
    CoreInv (writeControl x v s) where
  config_wf := by simpa [writeControl_eq] using h.config_wf
  feed_used := by simpa using feedAfterControl_used h.feed_used x v
  pending_used := by simpa using pendingAfterControl_used h.pending_used x v
  timer y := by
    by_cases hy : y = x
    · subst hy
      exact (h.timer y).writeControl_same ha v
    · exact (h.timer y).writeControl_other hy ha v
  line_has_cause := by
    rw [hasBit_writeControl_of_unowned (by simp), hasBit_writeControl_of_unowned (by simp), writeControl_irq,
      writeControl_icr]
    exact h.line_has_cause
  external_causes_need_hook := by simpa [writeControl_eq] using h.external_causes_need_hook
  idle_steady hi := absurd hi (by simp)
  idle_needs_enable _ := by simp
  idle_left _ := by simp [writeControl_eq, absorb_of_active ha, h.idle_left (.inl ha)]

theorem CoreInv.returnByte {s : State} (h : CoreInv s) (r : Byte) : CoreInv (returnByte r s) :=
  h.congr (by simp) (by simp) rfl rfl rfl rfl rfl rfl rfl

/-- A write of a latch changes nothing that the invariant reads. -/
theorem CoreInv.setLatch {s : State} (h : CoreInv s) (x : TimerId) (l : Word) :
    CoreInv (s.setTimer x { s.timer x with latch := l }) :=
  h.congr (fun y => by cases x <;> cases y <;> exact ⟨rfl, rfl, rfl⟩) (fun y => by cases x <;> cases y <;> rfl)
    (by simp) (by simp) (by simp) (by simp) (by simp) (by simp) (by simp)

theorem writeControl_absorb (x : TimerId) (v : Byte) (s : State) : writeControl x v (Machine.absorb s) = writeControl x v s := by
  rw [Machine.writeControl, Machine.writeControl, absorb_absorb]

/-- CAUSE with an empty set only absorbs (R162). -/
theorem raiseExternal_of_empty {c : Byte} (hc : c &&& 0x1C#8 = 0#8) (s : State) : raiseExternal c s = absorb s := by
  have hempty : externalCauses c = 0#5 := (externalCauses_eq_zero c).mpr hc
  simp only [raiseExternal, hempty, if_true, BitVec.or_zero]

/-- Every operation keeps the core of the invariant. -/
theorem CoreInv.exec {i : Instr} {s t : State} (h : CoreInv s) (hexec : exec i s = .next t) : CoreInv t := by
  have hu := h.absorb
  have ha := absorb_idle s
  cases effect_of_exec hexec with
  | tick => exact h.tick
  | reset => exact coreInv_resetChip h.config_wf
  | rdIcr => exact (hu.acknowledge ha).returnByte _
  | rdPrb => exact (hu.pulsePc ha).returnByte _
  | wrPrb v =>
    have stored : CoreInv { Machine.absorb s with prb := v } :=
      hu.congr (fun x => by cases x <;> exact ⟨rfl, rfl, rfl⟩) (fun x => by cases x <;> rfl) rfl rfl rfl rfl rfl rfl rfl
    exact stored.pulsePc ha
  | latchLow x v => exact h.setLatch x _
  | latchHigh x v =>
    rw [writeLatchHigh]
    split
    · exact h.setLatch x _
    · exact (h.setLatch x _).absorb.scheduleLoad (absorb_idle _) x
  | control x v =>
    rw [← writeControl_absorb]
    exact hu.writeControl ha x v
  | wrImr v =>
    exact hu.scheduleInterrupt ha (fun x => by cases x <;> rfl) rfl rfl rfl rfl rfl rfl id hu.external_causes_need_hook
  | cause c hook =>
    by_cases hc : c &&& 0x1C#8 = 0#8
    · rw [raiseExternal_of_empty hc]
      exact hu
    · rw [raiseExternal_of_nonempty hc]
      refine hu.scheduleInterrupt ha (fun x => by cases x <;> rfl) rfl rfl rfl rfl rfl rfl (fun hne hz => ?_) (fun hno => ?_)
      · exact hne (BitVec.or_eq_zero_iff.mp hz).1
      · exact absurd hook (by simpa using hno)
  | quiet _ _ same =>
    exact h.congr (fun x => by simp [same.timer x]) (fun x => by simp [same.timer x]) same.icr same.irq same.pending same.feed
      same.idle same.idleLeft same.config

/-- Every operation keeps the invariant. -/
theorem State.Inv.exec {i : Instr} {s t : State} (h : s.Inv) (hexec : exec i s = .next t) : t.Inv := by
  obtain ⟨hcore, hcause, hshake⟩ := inv_iff.mp h
  exact inv_iff.mpr ⟨hcore.exec hexec, hcause.exec hexec, hshake.exec hexec⟩

/-- The stimulus sequence has no part in the invariant. -/
theorem State.Inv.withStimulus {s : State} (h : s.Inv) (rest : List StimulusWord) : { s with stimulus := rest }.Inv := by
  obtain ⟨hcore, hcause, hshake⟩ := inv_iff.mp h
  exact inv_iff.mpr ⟨hcore.congr (fun x => by cases x <;> exact ⟨rfl, rfl, rfl⟩) (fun x => by cases x <;> rfl)
    rfl rfl rfl rfl rfl rfl rfl, hcause, hshake⟩

/-- Settles O59: every operation keeps the invariant, and a step is an operation on a shorter stimulus sequence. -/
theorem everyStepKeepsTheInvariant : Obligations.EveryStepKeepsTheInvariant := by
  unfold Obligations.EveryStepKeepsTheInvariant
  intro s t hs h
  exact step_keeps (p := State.Inv) (fun _ rest hs => hs.withStimulus rest) (fun _ _ _ hs h => hs.exec h) hs h

/-- RESET answers a state of the invariant from every state with a proper `IDLE_MIN`. -/
theorem inv_resetChip {s : State} (h : s.config.wf) : (resetChip s).Inv := by
  refine inv_iff.mpr ⟨coreInv_resetChip h, fun hen => absurd ?_ hen, nofun⟩
  show State.reset.icr &&& State.reset.imr = 0#5
  decide

/-- Settles O58: the reset state is what RESET answers on it. -/
theorem resetStateMeetsTheInvariant : Obligations.ResetStateMeetsTheInvariant := by
  unfold Obligations.ResetStateMeetsTheInvariant
  exact inv_resetChip (s := State.reset) (Nat.le_refl 1)

end Sys2Proof.Machine

namespace Sys2Proof.Machine

/-! ### The reference machine a state stands for (R175, R182) -/

/-- The state of a machine without the Idle Optimizer that `s` stands for, its parameters being `e`. -/
def State.referenceIn (e : Config) (s : State) : State := { s.abs with config := e }

/-- The outcome of that machine that an outcome stands for. -/
def referenceOutcomeIn (e : Config) : StepResult → StepResult
  | .next s => .next (s.referenceIn e)
  | .fault r => .fault r
  | .refused r => .refused r

section
variable (e : Config) (s : State) (x : TimerId)

@[simp] theorem referenceIn_pending : (s.referenceIn e).pending = s.pending := rfl
@[simp] theorem referenceIn_feed : (s.referenceIn e).feed = s.feed := rfl
@[simp] theorem referenceIn_idle : (s.referenceIn e).idle = false := rfl
@[simp] theorem referenceIn_timer : (s.referenceIn e).timer x = reconciled x s := by cases x <;> rfl

@[simp] theorem logicalCounter_referenceIn : logicalCounter x (s.referenceIn e) = logicalCounter x s := by
  rw [logicalCounter_of_active x (referenceIn_idle e s), referenceIn_timer, reconciled_counter]

theorem referenceIn_absorb : (absorb s).referenceIn e = s.referenceIn e := by
  have ht : ∀ x, reconciled x (absorb s) = reconciled x s := fun x => by simp [reconciled]
  have h : (absorb s).referenceIn e = { absorb s with
    timerA := reconciled .a (absorb s), timerB := reconciled .b (absorb s), idle := false, idleLeft := 0, config := e } := rfl
  rw [h, ht, ht, absorb_eq]
  rfl

/-- The reference state of an Active chip differs in the parameters only. -/
theorem referenceIn_of_active {s : State} (h : s.idle = false) :
    s.referenceIn e = { s with idle := false, idleLeft := 0, config := e } := by
  have ht : ∀ x, reconciled x s = s.timer x := fun x => by rw [reconciled, logicalCounter_of_active x h]
  have hr : s.referenceIn e = { s with
    timerA := reconciled .a s, timerB := reconciled .b s, idle := false, idleLeft := 0, config := e } := rfl
  rw [hr, ht, ht]
  rfl

end

/-! ### A TICK of the reference machine -/

section
variable (e : Config) (s : State)

/-- `s` with other parameters; the steps of an Active TICK read none of them. -/
def State.reconfigure : State := { s with idle := false, idleLeft := 0, config := e }

theorem afterPins_reconfigure : afterPins (s.reconfigure e) = (afterPins s).reconfigure e := by
  rw [afterPins, afterPins, pinSteps_eq, pinSteps_eq]
  rfl

theorem timerStep_reconfigure (x : TimerId) : timerStep x (s.reconfigure e) = (timerStep x s).reconfigure e := by
  have hsame : underflowsInStep x (s.reconfigure e) = underflowsInStep x s := by
    rw [underflowsInStep_eq, underflowsInStep_eq]
    cases x <;> rfl
  cases hu : underflowsInStep x s
  · rw [timerStep_of_no_underflow hu, timerStep_of_no_underflow (hsame.trans hu)]
    cases x <;> rfl
  · cases x
    · rw [timerStep_a_of_underflow hu, timerStep_a_of_underflow (hsame.trans hu)]
      rfl
    · rw [timerStep_b_of_underflow hu, timerStep_b_of_underflow (hsame.trans hu)]
      rfl

theorem activeTick_reconfigure : activeTick (s.reconfigure e) = (activeTick s).reconfigure e := by
  rw [activeTick_eq, activeTick_eq, afterTimerA, afterTimerA, afterPins_reconfigure, timerStep_reconfigure,
    timerStep_reconfigure, interruptStep_eq, interruptStep_eq]
  rfl

end

/-- Entering Idle does not change the reference state (R176). -/
theorem referenceIn_tryEnterIdle (e : Config) {s : State} (h : s.idle = false) :
    (tryEnterIdle s).referenceIn e = s.referenceIn e := by
  have ht : ∀ x, reconciled x (tryEnterIdle s) = s.timer x := by
    intro x
    rw [reconciled, logicalCounter_tryEnterIdle x s h, tryEnterIdle_frame]
    cases x <;> rfl
  have hr : (tryEnterIdle s).referenceIn e = { tryEnterIdle s with
    timerA := reconciled .a (tryEnterIdle s), timerB := reconciled .b (tryEnterIdle s)
    idle := false, idleLeft := 0, config := e } := rfl
  rw [hr, ht, ht, tryEnterIdle_frame, referenceIn_of_active e h]
  rfl

theorem tryEnterIdle_of_disabled {s : State} (h : s.config.idleEnable = false) : tryEnterIdle s = s := by
  rcases tryEnterIdle_cases s with hstay | ⟨henable, -⟩
  · exact hstay
  · exact absurd henable (by simp [h])

/-! ### A TICK from a steady pipeline (R94) -/

section
variable {s : State} (hs : steady s.pending s.feed = true)
include hs

theorem hasBit_false_of_steady {b : PipeBit} (hb : hasBit steadyBits b = false) : hasBit s.pending b = false :=
  Bool.eq_false_iff.mpr fun h => absurd (hasBit_of_steady hs h) (by simp [hb])

theorem shiftPipe_of_steady : shiftPipe s.pending s.feed = s.pending := by
  simp only [steady, Bool.and_eq_true, beq_iff_eq] at hs
  exact hs.2

/-- In a steady pipeline a timer is eligible to underflow exactly when it decrements. -/
theorem count2_of_steady (hf : s.feed &&& ~~~feedBits = 0#32) (x : TimerId) :
    hasBit s.pending x.count2 = counting x s := by
  have hfeed : hasBit s.feed x.count3 = false := hasBit_feed hf _ (by cases x <;> decide)
  rw [counting]
  conv_rhs => rw [← shiftPipe_of_steady hs, hasBit_shiftPipe, hfeed, Bool.or_false]
  cases x <;> rfl

/-- An Active TICK from a steady pipeline only moves the counters, unless a counter reaches 0. -/
theorem activeTick_of_steady (hf : s.feed &&& ~~~feedBits = 0#32)
    (hne : ∀ x, counting x s = true → nextCounter x s ≠ 0#16) : activeTick s =
      { s with
        timerA := { s.timerA with counter := nextCounter .a s }
        timerB := { s.timerB with counter := nextCounter .b s } } := by
  have none : ∀ x, (nextCounter x s == 0#16 && hasBit s.pending x.count2) = false := by
    intro x
    rw [count2_of_steady hs hf]
    cases hc : counting x s
    · simp
    · simpa using hne x hc
  have hA : newCauseA s = false := none .a
  have hB : newCauseB s = false := none .b
  have pins : afterPins s = s := by
    rw [afterPins, pinSteps_eq]
    simp [hasBit_false_of_steady hs (b := .pb6Low1) (by decide), hasBit_false_of_steady hs (b := .pb7Low1) (by decide),
      hasBit_false_of_steady hs (b := .pcHigh1) (by decide)]
  have stepA : afterTimerA s = s.setTimer .a { s.timer .a with counter := nextCounter .a s } := by
    rw [afterTimerA, timerStep_of_no_underflow ((underflowsInStep_a s).trans hA), pins]
  have stepB : timerStep .b (afterTimerA s) =
      (afterTimerA s).setTimer .b { (afterTimerA s).timer .b with counter := nextCounter .b s } := by
    rw [timerStep_of_no_underflow ((underflowsInStep_b s).trans hB), nextCounter_afterTimerA]
  have hint : hasBit s.pending .int1 = false := hasBit_false_of_steady hs (by decide)
  have hshift := shiftPipe_of_steady hs
  rw [activeTick_eq, hA, hB, stepB, stepA, interruptStep_eq]
  simp [shiftStep, State.setTimer, hint, hshift]

end

/-- A running timer of an Idle chip is at least two clocks from its underflow (R183). -/
theorem nextCounter_referenceIn_of_idle {s : State} {x : TimerId} (hx : TimerInv x s) (hi : s.idle = true)
    (hs : steady s.pending s.feed = true) (hc : counting x s = true) (e : Config) :
    nextCounter x (s.referenceIn e) = (s.timer x).counter + BitVec.ofNat 16 (s.idleLeft - 1) ∧
      nextCounter x (s.referenceIn e) ≠ 0#16 := by
  obtain ⟨hcounter, hleft, hsum⟩ := hx.idle_counter hi hc
  have hload : hasBit s.pending x.load1 = false := hasBit_false_of_steady hs (by cases x <;> decide)
  have hcount : hasBit s.pending x.count3 = true := hc
  have hnext : nextCounter x (s.referenceIn e) = (s.timer x).counter + BitVec.ofNat 16 s.idleLeft - 1#16 := by
    rw [nextCounter, referenceIn_pending, hload, hcount, referenceIn_timer, reconciled_counter, logicalCounter, hi, hc]
    rfl
  have hone : (s.timer x).counter + BitVec.ofNat 16 s.idleLeft - 1#16 =
      (s.timer x).counter + BitVec.ofNat 16 (s.idleLeft - 1) := by
    apply BitVec.eq_of_toNat_eq
    simp only [BitVec.toNat_sub, BitVec.toNat_add, BitVec.toNat_ofNat]
    omega
  refine ⟨hnext.trans hone, fun hz => ?_⟩
  rw [hnext, hone] at hz
  have hzero := congrArg BitVec.toNat hz
  simp only [BitVec.toNat_add, BitVec.toNat_ofNat] at hzero
  omega

/-- The counter of a timer that does not run stands in a TICK from a steady pipeline. -/
theorem nextCounter_of_not_counting {s : State} {x : TimerId} (hs : steady s.pending s.feed = true)
    (hc : counting x s = false) : nextCounter x s = (s.timer x).counter := by
  have hload : hasBit s.pending x.load1 = false := hasBit_false_of_steady hs (by cases x <;> decide)
  have hcount : hasBit s.pending x.count3 = false := hc
  simp [nextCounter, hload, hcount]

/-- The logical counter of a timer after an Idle TICK is the counter of the reference machine after its TICK (R176). -/
theorem logicalCounter_idleTick {s : State} {x : TimerId} (hx : TimerInv x s) (hi : s.idle = true)
    (hs : steady s.pending s.feed = true) (e : Config) :
    logicalCounter x (idleTick s) = nextCounter x (s.referenceIn e) := by
  cases hc : counting x s
  case false =>
    have hc' : counting x (idleTick s) = false := by
      rw [← tick_of_idle hi, tick_frame_of_idle hi]
      exact hc
    have hstand : nextCounter x (s.referenceIn e) = logicalCounter x s := by
      rw [nextCounter_of_not_counting (s := s.referenceIn e) hs hc, referenceIn_timer, reconciled_counter]
    rw [hstand, logicalCounter_of_not_counting x hc, logicalCounter_of_not_counting x hc', ← tick_of_idle hi,
      tick_timer_of_idle hi]
  case true =>
    rw [(nextCounter_referenceIn_of_idle hx hi hs hc e).1]
    rcases idleTick_cases s with ⟨hA, hB, -⟩ | ⟨-, hcount⟩
    · cases x <;> simp_all
    · have hc' : counting x (idleTick s) = true := by rw [hcount]; exact hc
      rw [logicalCounter, hc', ← tick_of_idle hi, tick_timer_of_idle hi, tick_of_idle hi, hcount]
      by_cases hz : s.idleLeft - 1 = 0
      · simp [hz]
      · simp [hz]

/-- A TICK of the machine with the optimizer is a TICK of the reference machine (R175). -/
theorem tick_referenceIn {s : State} (h : CoreInv s) {e : Config} (he : e.idleEnable = false) :
    tick (s.referenceIn e) = (tick s).referenceIn e := by
  rw [tick_of_active (referenceIn_idle e s)]
  cases hi : s.idle
  case false =>
    have ha : (activeTick s).idle = false := (activeTick_idle s).trans hi
    have hr : s.referenceIn e = s.reconfigure e := referenceIn_of_active e hi
    rw [tick_of_active hi, referenceIn_tryEnterIdle e ha, referenceIn_of_active e ha, hr, activeTick_reconfigure]
    exact tryEnterIdle_of_disabled he
  case true =>
    have hs := h.idle_steady hi
    have hne : ∀ x, counting x (s.referenceIn e) = true → nextCounter x (s.referenceIn e) ≠ 0#16 :=
      fun x hc => (nextCounter_referenceIn_of_idle (h.timer x) hi hs hc e).2
    rw [activeTick_of_steady (s := s.referenceIn e) hs h.feed_used hne, tryEnterIdle_of_disabled he, tick_of_idle hi,
      ← logicalCounter_idleTick (h.timer .a) hi hs, ← logicalCounter_idleTick (h.timer .b) hi hs, ← tick_of_idle hi]
    have hr : (tick s).referenceIn e = { tick s with
      timerA := reconciled .a (tick s), timerB := reconciled .b (tick s), idle := false, idleLeft := 0, config := e } := rfl
    have ht : ∀ x, reconciled x (tick s) = { s.timer x with counter := logicalCounter x (tick s) } := by
      intro x
      rw [reconciled, tick_timer_of_idle hi]
    rw [hr, ht, ht]
    generalize logicalCounter .a (tick s) = counterA
    generalize logicalCounter .b (tick s) = counterB
    rw [tick_frame_of_idle hi]
    rfl

/-! ### The accesses of the reference machine (R175, R176) -/

/-- An access that acts does so on the absorbed chip, and reads no parameter but the CAUSE hook: stated for each shared operation
on an Active chip. -/
theorem pulsePc_referenceIn (e : Config) {s : State} (ha : s.idle = false) :
    pulsePc (s.referenceIn e) = (pulsePc s).referenceIn e := by
  rw [referenceIn_of_active e ha, referenceIn_of_active e (by simpa using ha)]
  rfl

theorem acknowledge_referenceIn (e : Config) {s : State} (ha : s.idle = false) :
    acknowledge (s.referenceIn e) = (acknowledge s).referenceIn e := by
  rw [referenceIn_of_active e ha, referenceIn_of_active e (by simpa using ha)]
  rfl

theorem schedule_referenceIn (e : Config) {s : State} (ha : s.idle = false) (b : PipeBit) :
    schedule b (s.referenceIn e) = (schedule b s).referenceIn e := by
  rw [referenceIn_of_active e ha, referenceIn_of_active e (by simpa using ha)]
  rfl

theorem scheduleInterrupt_referenceIn (e : Config) {s : State} (ha : s.idle = false) :
    scheduleInterrupt (s.referenceIn e) = (scheduleInterrupt s).referenceIn e := by
  rw [referenceIn_of_active e ha, referenceIn_of_active e (by simpa using ha), scheduleInterrupt_eq, scheduleInterrupt_eq]
  rfl

theorem writeControl_referenceIn (e : Config) {s : State} (ha : s.idle = false) (x : TimerId) (v : Byte) :
    writeControl x v (s.referenceIn e) = (writeControl x v s).referenceIn e := by
  rw [referenceIn_of_active e ha, referenceIn_of_active e (writeControl_idle x v s), writeControl_eq, writeControl_eq,
    absorb_of_active ha, absorb_of_active rfl]
  cases x <;> simp [State.setTimer, timerAfterControl, logicalCounter, ha]

theorem absorb_referenceIn (e : Config) (s : State) : absorb (s.referenceIn e) = (absorb s).referenceIn e := by
  rw [absorb_of_active (referenceIn_idle e s), referenceIn_absorb]

theorem setLatch_referenceIn (e : Config) (s : State) (x : TimerId) (f : Word → Word) :
    (s.referenceIn e).setTimer x { (s.referenceIn e).timer x with latch := f ((s.referenceIn e).timer x).latch } =
      (s.setTimer x { s.timer x with latch := f (s.timer x).latch }).referenceIn e := by
  cases x <;> rfl

theorem writeLatchHigh_referenceIn (e : Config) (s : State) (x : TimerId) (v : Byte) :
    writeLatchHigh x v (s.referenceIn e) = (writeLatchHigh x v s).referenceIn e := by
  have hrun : running x (s.referenceIn e) = running x s := by cases x <;> rfl
  have hset := setLatch_referenceIn e s x (withHighByte · v)
  cases hr : running x s
  · rw [writeLatchHigh_of_stopped hr, writeLatchHigh_of_stopped (hrun.trans hr), hset, absorb_referenceIn,
      schedule_referenceIn e (absorb_idle _)]
  · rw [writeLatchHigh_eq, writeLatchHigh_eq, hrun, hr, if_pos rfl, if_pos rfl, hset]

theorem raiseExternal_referenceIn (e : Config) (s : State) (c : Byte) :
    raiseExternal c (s.referenceIn e) = (raiseExternal c s).referenceIn e := by
  by_cases hc : c &&& 0x1C#8 = 0#8
  · rw [raiseExternal_of_empty hc, raiseExternal_of_empty hc, absorb_referenceIn]
  · rw [raiseExternal_of_nonempty hc, raiseExternal_of_nonempty hc, absorb_referenceIn,
      ← scheduleInterrupt_referenceIn e (by exact absorb_idle s)]
    rfl

/-- Every operation acts on a state of the invariant as the reference machine does on the reference state (R175). -/
theorem exec_referenceIn {s : State} (h : CoreInv s) {e : Config} (he : e.idleEnable = false)
    (hook : e.causeHook = s.config.causeHook) (i : Instr) :
    exec i (s.referenceIn e) = referenceOutcomeIn e (exec i s) := by
  have ha := absorb_idle s
  cases i
  case tick => exact congrArg Host.Outcome.next (tick_referenceIn h he)
  case rdPrb =>
    rw [exec_rdPrb, exec_rdPrb, absorb_referenceIn, pulsePc_referenceIn e ha]
    rfl
  case wrPrb v =>
    rw [exec_wrPrb, exec_wrPrb, absorb_referenceIn, referenceOutcomeIn, ← pulsePc_referenceIn e (by exact ha)]
    rfl
  case rdIcr =>
    rw [exec_rdIcr, exec_rdIcr, absorb_referenceIn, acknowledge_referenceIn e ha]
    rfl
  case wrTahi v => exact congrArg Host.Outcome.next (writeLatchHigh_referenceIn e s .a v)
  case wrTbhi v => exact congrArg Host.Outcome.next (writeLatchHigh_referenceIn e s .b v)
  case wrCra v | wrCrb v =>
    refine congrArg Host.Outcome.next ?_
    rw [← writeControl_absorb _ v s, ← writeControl_referenceIn e ha, ← absorb_referenceIn, writeControl_absorb]
  case wrImr v =>
    rw [exec_wrImr, exec_wrImr, absorb_referenceIn, referenceOutcomeIn, ← scheduleInterrupt_referenceIn e (by exact ha)]
    rfl
  case cause c =>
    cases hk : s.config.causeHook
    · rw [exec_cause_of_no_hook hk, exec_cause_of_no_hook (hook.trans hk)]
      rfl
    · rw [exec_cause_of_hook hk, exec_cause_of_hook (hook.trans hk), raiseExternal_referenceIn]
      rfl
  case rdTalo | rdTahi | rdTblo | rdTbhi =>
    rw [exec_of_plainReadValue rfl, exec_of_plainReadValue rfl, logicalCounter_referenceIn]
    rfl
  all_goals rfl

/-- The parameters are data that no operation changes (R205). -/
theorem config_of_exec {i : Instr} {s t : State} (h : exec i s = .next t) : t.config = s.config := by
  obtain ⟨-, -, -, -, -, -, -, -, -, -, -, -, -, hconfig, -⟩ := registersChangeByTheirOwnWritesOnly i s t h
  exact hconfig

/-- Settles O56: the reference machine with the parameters of `s`, the optimizer off. -/
theorem idleOptimizerIsTransparent : Obligations.IdleOptimizerIsTransparent := by
  unfold Obligations.IdleOptimizerIsTransparent
  intro i s h
  have hsim := exec_referenceIn (inv_iff.mp h).1 (e := { s.config with idleEnable := false }) rfl rfl i
  refine hsim.trans ?_
  cases hexec : exec i s with
  | next t =>
    rw [referenceOutcomeIn, referenceOutcome, State.reference, config_of_exec hexec]
    rfl
  | fault r => rfl
  | refused r => rfl

end Sys2Proof.Machine

namespace Sys2Proof.Machine

/-! ### Sequences of operations (R57, R175, R182) -/

/-- A sequence of operations acts as it does on the reference machine. -/
theorem execAll_referenceIn {e : Config} (he : e.idleEnable = false) (is : List Instr) :
    ∀ {s : State}, s.Inv → e.causeHook = s.config.causeHook →
      execAll is (s.referenceIn e) = referenceOutcomeIn e (execAll is s) := by
  induction is with
  | nil => exact fun _ _ => rfl
  | cons i is ih =>
    intro s h hook
    rw [execAll, execAll, exec_referenceIn (inv_iff.mp h).1 he hook i]
    cases hexec : exec i s with
    | next t => exact ih (h.exec hexec) (by rw [hook, config_of_exec hexec])
    | fault r => rfl
    | refused r => rfl

theorem config_of_execAll (is : List Instr) : ∀ {s t : State}, execAll is s = .next t → t.config = s.config := by
  induction is with
  | nil =>
    rintro s t h
    rw [Host.Outcome.next.inj h]
  | cons i is ih =>
    intro s t h
    rw [execAll] at h
    cases hexec : exec i s with
    | next u =>
      rw [hexec] at h
      rw [ih h, config_of_exec hexec]
    | fault r => rw [hexec] at h; cases h
    | refused r => rw [hexec] at h; cases h

/-- The outputs read nothing that the abstraction changes (R176). -/
theorem outputsOf_referenceIn (e : Config) (s : State) : outputsOf (s.referenceIn e) = outputsOf s := rfl

/-- Settles O57: both runs stand for the same run of the reference machine. -/
theorem idleParametersAreUnobservable : Obligations.IdleParametersAreUnobservable := by
  unfold Obligations.IdleParametersAreUnobservable
  intro c d is hc hd hook
  let e : Config := { c with idleEnable := false }
  have inv : ∀ k : Config, k.wf → { State.reset with config := k }.Inv :=
    fun k hk => inv_resetChip (s := { State.reset with config := k }) hk
  have runC := execAll_referenceIn (e := e) rfl is (inv c hc) rfl
  have runD := execAll_referenceIn (e := e) rfl is (inv d hd) hook
  have same : referenceOutcomeIn e (execAll is { State.reset with config := c }) =
      referenceOutcomeIn e (execAll is { State.reset with config := d }) := runC.symm.trans runD
  cases hC : execAll is { State.reset with config := c } with
  | next s =>
    cases hD : execAll is { State.reset with config := d } with
    | next t =>
      rw [hC, hD] at same
      have heq : s.referenceIn e = t.referenceIn e := Host.Outcome.next.inj same
      have hcfg : s.config = c := config_of_execAll is hC
      refine .inl ⟨s, t, rfl, rfl, ?_, ?_, ?_⟩
      · have habs := congrArg (fun u : State => { u with config := c }) heq
        have hs : { s.abs with config := c } = s.abs := by rw [← hcfg]; rfl
        exact habs.symm.trans hs
      · exact (congrArg State.returned heq).symm
      · rw [← outputsOf_referenceIn e t, ← heq, outputsOf_referenceIn]
    | fault r => exact nomatch r
    | refused r => rw [hC, hD] at same; cases same
  | fault r => exact nomatch r
  | refused r =>
    cases hD : execAll is { State.reset with config := d } with
    | next t => rw [hC, hD] at same; cases same
    | fault r => exact nomatch r
    | refused q =>
      rw [hC, hD] at same
      cases same
      exact .inr ⟨r, rfl, rfl⟩

/-! ### The reset chip (R205) -/

/-- A chip with empty pipeline words stands still, whatever the parameters. -/
theorem tick_of_empty {s : State} (hp : s.pending = 0#32) (hf : s.feed = 0#32) :
    (tick s).abs = s.abs ∧ (tick s).pending = 0#32 ∧ (tick s).feed = 0#32 := by
  have hs : steady s.pending s.feed = true := by rw [hp, hf]; decide
  have hfeed : s.feed &&& ~~~feedBits = 0#32 := by rw [hf]; decide
  have hnone : ∀ x, counting x s = false := fun x => by rw [counting, hp]; simp
  cases hi : s.idle
  case true =>
    rcases idleTick_cases s with ⟨-, -, hstay⟩ | ⟨hrun, -⟩
    · rw [tick_of_idle hi, hstay]
      exact ⟨rfl, hp, hf⟩
    · simp [hnone] at hrun
  case false =>
    have hsame : activeTick s = s := by
      rw [activeTick_of_steady hs hfeed (fun x hc => absurd hc (by simp [hnone x])),
        nextCounter_of_not_counting hs (hnone .a), nextCounter_of_not_counting hs (hnone .b)]
      rfl
    have habs : ∀ u : State, u.abs = u.referenceIn u.config := fun _ => rfl
    rw [tick_of_active hi, hsame]
    refine ⟨?_, by rw [tryEnterIdle_frame]; exact hp, by rw [tryEnterIdle_frame]; exact hf⟩
    rw [habs, habs, referenceIn_tryEnterIdle _ hi, tryEnterIdle_frame]

theorem ticks_of_empty (n : Nat) : ∀ {s : State}, s.pending = 0#32 → s.feed = 0#32 → (ticks n s).abs = s.abs := by
  induction n with
  | zero => exact fun _ _ => rfl
  | succ n ih =>
    intro s hp hf
    obtain ⟨habs, hp', hf'⟩ := tick_of_empty hp hf
    rw [ticks, ih hp' hf', habs]

/-- Settles O7: the reset pipeline is empty, and the outputs are those of the abstraction. -/
theorem resetChipStaysQuiescent : Obligations.ResetChipStaysQuiescent := by
  unfold Obligations.ResetChipStaysQuiescent
  intro s n
  have habs := ticks_of_empty n (s := resetChip s) rfl rfl
  have outputs : ∀ u : State, outputsOf u = outputsOf u.abs := fun _ => rfl
  refine ⟨resetChip s, rfl, habs, ?_⟩
  rw [outputs, habs]
  change outputsOf State.reset = _
  decide

/-! ### A scheduled load (R88, R114, R116, R151) -/

/-- A load at stage 0 of an Active chip happens in the second TICK: the chip cannot have entered Idle (R94). -/
theorem logicalCounter_second_tick {x : TimerId} {s : State} (h : s.idle = false)
    (h0 : hasBit s.pending x.load0 = true) : logicalCounter x (ticks 2 s) = (s.timer x).latch := by
  have hafter : hasBit (afterTimers s).pending x.load0 = true := by simp [afterTimers_load0 h, h0]
  have h1 : hasBit (tick s).pending x.load1 = true :=
    hasBit_tick_of_before h (c := x.load0) (by cases x <;> rfl) hafter
  have hactive : (tick s).idle = false := tick_active_of_unsteady h (by cases x <;> decide) h1
  rw [ticks_two, logicalCounter_tick_of_active x hactive, nextCounter, h1, if_pos rfl, tick_latch]

/-- Settles O21: both accesses leave an Active chip with the load at stage 0. -/
theorem scheduledLoadHappensInTheNextClock : Obligations.ScheduledLoadHappensInTheNextClock := by
  unfold Obligations.ScheduledLoadHappensInTheNextClock
  rintro x v s i (⟨rfl, hstop⟩ | ⟨rfl, hload⟩)
  · have hstopped : running x s = false := hstop
    exact ⟨_, exec_latchHighWrite x v s, logicalCounter_second_tick (by simp [hstopped]) (by simp [hstopped])⟩
  · have strobe : ctlLoad v = true := hload
    exact ⟨_, exec_controlWrite x v s,
      logicalCounter_second_tick (writeControl_idle x v s) (by rw [hasBit_load0_writeControl, strobe, Bool.or_true])⟩

/-! ### Runs of TICKs on the reference machine (R80, R182) -/

/-- The reference state with the default parameters, the optimizer off. -/
def State.plain (s : State) : State := s.referenceIn Config.default

theorem ticks_succ (n : Nat) : ∀ s : State, ticks (n + 1) s = tick (ticks n s) := by
  induction n with
  | zero => exact fun _ => rfl
  | succ n ih => exact fun s => ih (tick s)

theorem ticks_add (m n : Nat) (s : State) : ticks (m + n) s = ticks n (ticks m s) := by
  induction n with
  | zero => rfl
  | succ n ih => rw [← Nat.add_assoc, ticks_succ, ticks_succ, ih]

theorem State.Inv.ticks {s : State} (h : s.Inv) (n : Nat) : (ticks n s).Inv := by
  induction n with
  | zero => exact h
  | succ n ih =>
    rw [ticks_succ]
    exact ih.exec (exec_tick _)

/-- A run of TICKs stands for the run of the reference machine. -/
theorem ticks_plain {s : State} (h : s.Inv) (n : Nat) : (ticks n s).plain = ticks n s.plain := by
  induction n with
  | zero => rfl
  | succ n ih =>
    rw [ticks_succ, ticks_succ, ← ih]
    exact (tick_referenceIn (inv_iff.mp (h.ticks n)).1 rfl).symm

section
variable {s : State} (h : s.Inv) (n : Nat) (x : TimerId)
include h

/-- What a statement about a run reads of a state is what the reference run shows. -/
theorem logicalCounter_ticks : logicalCounter x (ticks n s) = ((ticks n s.plain).timer x).counter := by
  rw [← ticks_plain h, State.plain, referenceIn_timer, reconciled_counter]

theorem toggle_ticks : ((ticks n s).timer x).toggle = ((ticks n s.plain).timer x).toggle := by
  rw [← ticks_plain h, State.plain, referenceIn_timer, reconciled_toggle]

theorem running_ticks : running x (ticks n s) = running x (ticks n s.plain) := by
  rw [running, running, ← ticks_plain h, State.plain, referenceIn_timer, reconciled_control]

theorem icr_ticks : (ticks n s).icr = (ticks n s.plain).icr := by
  rw [← ticks_plain h]
  rfl

theorem pending_ticks : (ticks n s).pending = (ticks n s.plain).pending := by
  rw [← ticks_plain h]
  rfl

theorem feed_ticks : (ticks n s).feed = (ticks n s.plain).feed := by
  rw [← ticks_plain h]
  rfl

end

/-- A chip that is Active and stays so, every TICK being a full one. -/
structure Unoptimized (r : State) : Prop where
  active : r.idle = false
  disabled : r.config.idleEnable = false
  feed_used : r.feed &&& ~~~feedBits = 0#32

theorem State.Inv.plain_unoptimized {s : State} (h : s.Inv) : Unoptimized s.plain := ⟨rfl, rfl, h.feed_used⟩

theorem Unoptimized.tick {r : State} (h : Unoptimized r) :
    Unoptimized (tick r) ∧ ∀ x, ((tick r).timer x).counter = nextCounter x r := by
  rcases tick_idle_cases h.active with ⟨hactive, -, hcounter⟩ | ⟨-, henable, -⟩
  · exact ⟨⟨hactive, by simpa using h.disabled, tick_feed_used h.active h.feed_used⟩, hcounter⟩
  · exact absurd henable (by simp [h.disabled])

end Sys2Proof.Machine

namespace Sys2Proof.Machine

/-! ### What every TICK of a run does to a timer -/

/-- A chip with a load due is not Idle (R94). -/
theorem State.Inv.active_of_load1 {s : State} (h : s.Inv) {x : TimerId} (hload : hasBit s.pending x.load1 = true) :
    s.idle = false := by
  by_contra hi
  have hno := hasBit_false_of_steady (h.idle_steady (by simpa using hi)) (b := x.load1) (by cases x <;> decide)
  simp [hno] at hload

theorem Unoptimized.ticks {r : State} (h : Unoptimized r) (n : Nat) : Unoptimized (ticks n r) := by
  induction n with
  | zero => exact h
  | succ n ih =>
    rw [ticks_succ]
    exact ih.tick.1

theorem ticks_latch (x : TimerId) (n : Nat) (r : State) : ((ticks n r).timer x).latch = (r.timer x).latch := by
  induction n with
  | zero => rfl
  | succ n ih => rw [ticks_succ, tick_latch, ih]

/-- Without an underflow a TICK changes neither the toggle bit nor the control register (R125, R126). -/
theorem tick_registers_of_no_underflow {x : TimerId} {r : State} (h : r.idle = false) (hu : underflowDue x r = false) :
    ((tick r).timer x).toggle = (r.timer x).toggle ∧ ((tick r).timer x).control = (r.timer x).control := by
  simp [tick_toggle_of_active h, tick_control_of_active h, stopDue, hu]

theorem no_underflow_of_nextCounter {x : TimerId} {r : State} (h : nextCounter x r ≠ 0#16) : underflowDue x r = false := by
  simp [underflowDue, h]

theorem no_underflow_of_count2 {x : TimerId} {r : State} (h : hasBit r.pending x.count2 = false) :
    underflowDue x r = false := by
  simp [underflowDue, h]

theorem nextCounter_of_load {x : TimerId} {r : State} (h : hasBit r.pending x.load1 = true) :
    nextCounter x r = (r.timer x).latch := by
  simp [nextCounter, h]

theorem nextCounter_of_count {x : TimerId} {r : State} (hload : hasBit r.pending x.load1 = false)
    (h : hasBit r.pending x.count3 = true) : nextCounter x r = (r.timer x).counter - 1#16 := by
  simp [nextCounter, hload, h]

theorem nextCounter_of_none {x : TimerId} {r : State} (hload : hasBit r.pending x.load1 = false)
    (h : hasBit r.pending x.count3 = false) : nextCounter x r = (r.timer x).counter := by
  simp [nextCounter, hload, h]

theorem not_cascadeEnabled_of_stopped {r : State} (h : running .b r = false) : cascadeEnabled r = false := by
  simp [cascadeEnabled, h]

/-- No cascade pulse reaches a stopped timer (R129). -/
theorem tick_count2_of_stopped {x : TimerId} {r : State} (h : Unoptimized r) (hstop : running x r = false)
    (h1 : hasBit r.pending x.count1 = false) : hasBit (tick r).pending x.count2 = false := by
  rw [tick_count2 h.active h.feed_used, h1]
  cases x
  · simp
  · simp [not_cascadeEnabled_of_stopped hstop]

/-! ### A timer on its way to its underflow (R131, R132, R134) -/

/-- Timer X counts system clocks with full stages 0 to 2 and its next counter is `k`, so that it underflows in the TICK after `k`
more; `o` tells whether it is a one-shot. -/
structure Armed (x : TimerId) (o : Bool) (k : Nat) (r : State) : Prop where
  run : Unoptimized r
  next : (nextCounter x r).toNat = k
  count0 : hasBit r.pending x.count0 = true
  count1 : hasBit r.pending x.count1 = true
  count2 : hasBit r.pending x.count2 = true
  feed_count0 : hasBit r.feed x.count0 = true
  load0 : hasBit r.pending x.load0 = false
  oneShot : hasBit r.pending x.oneShot = o
  feed_oneShot : hasBit r.feed x.oneShot = o

section
variable {x : TimerId} {o : Bool} {k : Nat} {r : State}

theorem Armed.no_underflow (h : Armed x o (k + 1) r) : underflowDue x r = false :=
  no_underflow_of_nextCounter fun hz => by simpa [hz] using h.next

theorem Armed.underflow (h : Armed x o 0 r) : underflowDue x r = true :=
  (underflowDue_iff h.run.active x).mpr ⟨BitVec.eq_of_toNat_eq h.next, h.count2⟩

/-- A TICK that does not stop the timer leaves it armed, for the counter that comes next. -/
theorem Armed.tick_of_no_stop (h : Armed x o k r) (hstop : stopDue x r = false) :
    Armed x o (nextCounter x (tick r)).toNat (tick r) where
  run := h.run.tick.1
  next := rfl
  count0 := by simp [tick_count0 h.run.active, h.feed_count0, hstop]
  count1 := by simp [tick_count1 h.run.active h.run.feed_used, h.count0, hstop]
  count2 := by simp [tick_count2 h.run.active h.run.feed_used, h.count1, hstop]
  feed_count0 := by simp [tick_feed_count0 h.run.active, h.feed_count0, hstop]
  load0 := tick_load0 h.run.active h.run.feed_used x
  oneShot := (tick_oneShot h.run.active x).trans h.feed_oneShot
  feed_oneShot := (tick_feed_oneShot h.run.active x).trans h.feed_oneShot

theorem Armed.tick (h : Armed x o (k + 1) r) : Armed x o k (tick r) := by
  have hu := h.no_underflow
  have hstop : stopDue x r = false := by simp [stopDue, hu]
  have hload : hasBit (Machine.tick r).pending x.load1 = false := by
    simp [tick_load1 h.run.active h.run.feed_used, h.load0, hu]
  have hcount : hasBit (Machine.tick r).pending x.count3 = true := by
    simp [tick_count3 h.run.active h.run.feed_used, h.count2, hstop]
  have hk : (nextCounter x (Machine.tick r)).toNat = k := by
    have hlt := (nextCounter x r).isLt
    have hnext := h.next
    rw [nextCounter_of_count hload hcount, h.run.tick.2 x]
    simp only [BitVec.toNat_sub, BitVec.toNat_ofNat]
    omega
  exact hk ▸ h.tick_of_no_stop hstop

/-- Until the underflow the timer counts down and nothing else of it changes. -/
theorem Armed.ticks {L : Nat} (h : Armed x o L r) (n : Nat) (hn : n ≤ L) :
    Armed x o (L - n) (ticks n r) ∧ ((ticks n r).timer x).toggle = (r.timer x).toggle ∧
      ((ticks n r).timer x).control = (r.timer x).control := by
  induction n with
  | zero => exact ⟨h, rfl, rfl⟩
  | succ n ih =>
    obtain ⟨harmed, htoggle, hcontrol⟩ := ih (Nat.le_of_succ_le hn)
    obtain ⟨k, hk⟩ : ∃ k, L - n = k + 1 := ⟨L - n - 1, by omega⟩
    have hk' : L - (n + 1) = k := by omega
    rw [hk] at harmed
    obtain ⟨htoggle', hcontrol'⟩ := tick_registers_of_no_underflow harmed.run.active harmed.no_underflow
    rw [ticks_succ, hk', htoggle', hcontrol']
    exact ⟨harmed.tick, htoggle, hcontrol⟩

variable {L : Nat}

theorem Armed.at_underflow (h : Armed x o L r) : Armed x o 0 (Machine.ticks L r) := by
  simpa using (h.ticks L (Nat.le_refl L)).1

theorem Armed.counter_ticks (h : Armed x o L r) {n : Nat} (hn : n ≤ L) :
    ((Machine.ticks (n + 1) r).timer x).counter.toNat = L - n := by
  obtain ⟨harmed, -⟩ := h.ticks n hn
  rw [ticks_succ, harmed.run.tick.2 x, harmed.next]

theorem Armed.toggle_at_underflow (h : Armed x o L r) :
    ((Machine.ticks (L + 1) r).timer x).toggle = !(r.timer x).toggle := by
  rw [ticks_succ, tick_toggle_of_active h.at_underflow.run.active, if_pos h.at_underflow.underflow,
    (h.ticks L (Nat.le_refl L)).2.1]

theorem Armed.toggle_ticks (h : Armed x o L r) {n : Nat} (hn : n ≤ L + 1) :
    ((Machine.ticks n r).timer x).toggle = (if n = L + 1 then !(r.timer x).toggle else (r.timer x).toggle) := by
  by_cases hlast : n = L + 1
  · rw [if_pos hlast, hlast, h.toggle_at_underflow]
  · rw [if_neg hlast, (h.ticks n (by omega)).2.1]

theorem Armed.icr_at_underflow (h : Armed x o L r) : (Machine.ticks (L + 1) r).icr.getLsbD x.cause.code = true := by
  rw [ticks_succ]
  exact tick_icr_of_underflow h.at_underflow.underflow

end

/-! ### A timer that counts no more (R128, R134) -/

/-- Timer X is stopped, and no count or load follows the one that may be due in the coming TICK. -/
structure AtRest (x : TimerId) (r : State) : Prop where
  run : Unoptimized r
  stopped : running x r = false
  count0 : hasBit r.pending x.count0 = false
  count1 : hasBit r.pending x.count1 = false
  count2 : hasBit r.pending x.count2 = false
  feed_count0 : hasBit r.feed x.count0 = false
  load0 : hasBit r.pending x.load0 = false

section
variable {x : TimerId} {r : State}

/-- The first TICK takes the counter to its value for good. -/
theorem AtRest.tick (h : AtRest x r) : AtRest x (tick r) ∧ nextCounter x (tick r) = nextCounter x r ∧
    ((tick r).timer x).toggle = (r.timer x).toggle := by
  obtain ⟨run, stopped, count0, count1, count2, feed_count0, load0⟩ := h
  have hu := no_underflow_of_count2 count2
  obtain ⟨htoggle, hcontrol⟩ := tick_registers_of_no_underflow run.active hu
  have hload : hasBit (Machine.tick r).pending x.load1 = false := by simp [tick_load1 run.active run.feed_used, load0, hu]
  have hcount : hasBit (Machine.tick r).pending x.count3 = false := by simp [tick_count3 run.active run.feed_used, count2]
  refine ⟨⟨run.tick.1, ?_, ?_, ?_, tick_count2_of_stopped run stopped count1, ?_, tick_load0 run.active run.feed_used x⟩,
    ?_, htoggle⟩
  · rw [running, hcontrol]
    exact stopped
  · simp [tick_count0 run.active, feed_count0]
  · simp [tick_count1 run.active run.feed_used, count0]
  · simp [tick_feed_count0 run.active, feed_count0]
  · rw [nextCounter_of_none hload hcount, run.tick.2 x]

theorem AtRest.ticks (h : AtRest x r) (n : Nat) : AtRest x (ticks n r) ∧ nextCounter x (ticks n r) = nextCounter x r ∧
    ((ticks n r).timer x).toggle = (r.timer x).toggle := by
  induction n with
  | zero => exact ⟨h, rfl, rfl⟩
  | succ n ih =>
    obtain ⟨hrest, hnext, htoggle⟩ := ih
    obtain ⟨hrest', hnext', htoggle'⟩ := hrest.tick
    rw [ticks_succ]
    exact ⟨hrest', hnext'.trans hnext, htoggle'.trans htoggle⟩

theorem AtRest.counter_ticks (h : AtRest x r) (n : Nat) :
    ((Machine.ticks (n + 1) r).timer x).counter = nextCounter x r := by
  obtain ⟨hrest, hnext, -⟩ := h.ticks n
  rw [ticks_succ, hrest.run.tick.2 x, hnext]

/-- The underflow of a one-shot timer stops it and schedules the last load (R126). -/
theorem Armed.tick_oneShot (h : Armed x true 0 r) :
    AtRest x (Machine.tick r) ∧ nextCounter x (Machine.tick r) = (r.timer x).latch := by
  have hstop : stopDue x r = true := by simp [stopDue, h.underflow, oneShotSelected, h.oneShot]
  have hload : hasBit (Machine.tick r).pending x.load1 = true := by
    simp [tick_load1 h.run.active h.run.feed_used, h.underflow]
  refine ⟨⟨h.run.tick.1, ?_, ?_, ?_, ?_, ?_, tick_load0 h.run.active h.run.feed_used x⟩, ?_⟩
  · simp [running, tick_control_of_active h.run.active, hstop]
  · simp [tick_count0 h.run.active, hstop]
  · simp [tick_count1 h.run.active h.run.feed_used, hstop]
  · simp [tick_count2 h.run.active h.run.feed_used, hstop]
  · simp [tick_feed_count0 h.run.active, hstop]
  · rw [nextCounter_of_load hload, tick_latch]

end

/-! ### The reference state after a control write (R136, R140) -/

section
variable {x : TimerId} {v : Byte} {s : State}

theorem writeControl_inv (h : s.Inv) : (writeControl x v s).Inv := h.exec (exec_controlWrite x v s)

/-- The timer that a run from the written state starts with. -/
theorem writeControl_plain_timer : (writeControl x v s).plain.timer x = timerAfterControl x v s := by
  rw [State.plain, referenceIn_timer, reconciled, logicalCounter_of_active x (writeControl_idle x v s), writeControl_timer]

theorem writeControl_plain_pending : (writeControl x v s).plain.pending = pendingAfterControl x v s.pending :=
  writeControl_pending x v s

theorem writeControl_plain_feed : (writeControl x v s).plain.feed = feedAfterControl x v s.feed :=
  writeControl_feed x v s

/-- The stages of the count and load chains after a control write. -/
theorem pendingAfterControl_chains (p : PipeWord) :
    hasBit (pendingAfterControl x v p) x.count0 = countsSystemClock x v ∧
    hasBit (pendingAfterControl x v p) x.count1 = countsSystemClock x v ∧
    hasBit (pendingAfterControl x v p) x.count2 = hasBit p x.count2 ∧
    hasBit (pendingAfterControl x v p) x.count3 = hasBit p x.count3 ∧
    hasBit (pendingAfterControl x v p) x.load0 = (hasBit p x.load0 || ctlLoad v) ∧
    hasBit (pendingAfterControl x v p) x.load1 = hasBit p x.load1 := by
  simp only [hasBit_pendingAfterControl]
  cases x <;> exact ⟨rfl, rfl, rfl, rfl, rfl, rfl⟩

theorem feedAfterControl_bits (f : PipeWord) : hasBit (feedAfterControl x v f) x.count0 = countsSystemClock x v ∧
    hasBit (feedAfterControl x v f) x.oneShot = ctlOneShot v := by
  simp only [hasBit_feedAfterControl]
  cases x <;> exact ⟨rfl, rfl⟩

theorem ctlStart_of_countsSystemClock (h : countsSystemClock x v = true) : ctlStart v = true := by
  simp only [countsSystemClock, Bool.and_eq_true] at h
  exact h.1

theorem not_countsSystemClock_of_stopped (h : ctlStart v = false) : countsSystemClock x v = false := by
  simp [countsSystemClock, h]

/-- A started timer is armed after the first TICK: the counter stands at the latch, whether or not the write forced a load. -/
theorem armed_of_start {L : Nat} (h : s.Inv) (hempty : chainEmpty x s = true) (hlatch : (s.timer x).latch.toNat = L)
    (hcounter : (logicalCounter x s).toNat = L) (hclock : countsSystemClock x v = true) :
    Armed x (ctlOneShot v) L (tick (writeControl x v s).plain) ∧
      ((tick (writeControl x v s).plain).timer x).counter.toNat = L ∧
      ((tick (writeControl x v s).plain).timer x).toggle = ((writeControl x v s).timer x).toggle ∧
      ((tick (writeControl x v s).plain).timer x).control = storedControl v := by
  have run := (writeControl_inv (x := x) (v := v) h).plain_unoptimized
  have ht := writeControl_plain_timer (x := x) (v := v) (s := s)
  obtain ⟨count0, count1, count2, count3, load0, load1⟩ := pendingAfterControl_chains (x := x) (v := v) s.pending
  obtain ⟨feed0, feedOneShot⟩ := feedAfterControl_bits (x := x) (v := v) s.feed
  rw [← writeControl_plain_pending (s := s)] at count0 count1 count2 count3 load0 load1
  rw [← writeControl_plain_feed (s := s)] at feed0 feedOneShot
  have htoggle : ((writeControl x v s).timer x).toggle = (timerAfterControl x v s).toggle := by rw [writeControl_timer]
  rw [htoggle]
  generalize (writeControl x v s).plain = r at *
  simp only [chainEmpty, Bool.and_eq_true, Bool.not_eq_true'] at hempty
  obtain ⟨⟨⟨⟨⟨-, -⟩, he2⟩, he3⟩, he4⟩, he5⟩ := hempty
  rw [hclock] at count0 count1 feed0
  rw [he2] at count2
  rw [he3] at count3
  rw [he4, Bool.false_or] at load0
  rw [he5] at load1
  have hu := no_underflow_of_count2 count2
  have hstop : stopDue x r = false := by simp [stopDue, hu]
  have hsame := tick_registers_of_no_underflow run.active hu
  have hfirst : ((tick r).timer x).counter = logicalCounter x s := by
    rw [run.tick.2 x, nextCounter_of_none load1 count3, ht, timerAfterControl]
  have hload1 : hasBit (tick r).pending x.load1 = ctlLoad v := by
    simp [tick_load1 run.active run.feed_used, load0, hu]
  have hcount3 : hasBit (tick r).pending x.count3 = false := by simp [tick_count3 run.active run.feed_used, count2]
  have hnext : (nextCounter x (tick r)).toNat = L := by
    cases hforce : ctlLoad v
    · rw [nextCounter_of_none (hload1.trans hforce) hcount3, hfirst, hcounter]
    · rw [nextCounter_of_load (hload1.trans hforce), tick_latch, ht, timerAfterControl, hlatch]
  refine ⟨⟨run.tick.1, hnext, ?_, ?_, ?_, ?_, tick_load0 run.active run.feed_used x, ?_, ?_⟩, ?_, ?_, ?_⟩
  · simp [tick_count0 run.active, feed0, hstop]
  · simp [tick_count1 run.active run.feed_used, count0, hstop]
  · simp [tick_count2 run.active run.feed_used, count1, hstop]
  · simp [tick_feed_count0 run.active, feed0, hstop]
  · rw [tick_oneShot run.active, feedOneShot]
  · rw [tick_feed_oneShot run.active, feedOneShot]
  · rw [hfirst, hcounter]
  · rw [hsame.1, ht]
  · rw [hsame.2, ht, timerAfterControl]

end

/-- Settles O29: the timer is armed after TICK 0, and the run is one of the reference machine. -/
theorem firstUnderflowComesAtLatchPlusOne : Obligations.FirstUnderflowComesAtLatchPlusOne := by
  unfold Obligations.FirstUnderflowComesAtLatchPlusOne
  intro x v s L h _ hempty hlatch hcounter hclock _
  refine ⟨_, exec_controlWrite x v s, fun n hn => ?_⟩
  have hinv := writeControl_inv (x := x) (v := v) h
  obtain ⟨harmed, hfirst, htoggle, -⟩ := armed_of_start h hempty hlatch hcounter hclock
  rw [logicalCounter_ticks hinv, toggle_ticks hinv, icr_ticks hinv, ← htoggle]
  refine ⟨?_, harmed.toggle_ticks hn, ?_⟩
  · cases n with
    | zero => exact hfirst
    | succ m =>
      rw [if_neg (Nat.succ_ne_zero m), Nat.add_sub_add_right]
      exact harmed.counter_ticks (Nat.le_of_succ_le_succ hn)
  · rintro rfl
    exact harmed.icr_at_underflow

/-- Settles O31: the armed one-shot timer underflows once and is at rest from then on, its last load still due. -/
theorem oneShotTimerUnderflowsOnceAndStands : Obligations.OneShotTimerUnderflowsOnceAndStands := by
  unfold Obligations.OneShotTimerUnderflowsOnceAndStands
  intro x v s L h _ hempty hlatch hcounter hclock honeShot
  have hinv := writeControl_inv (x := x) (v := v) h
  obtain ⟨harmed, -, htoggle, hcontrol⟩ := armed_of_start h hempty hlatch hcounter hclock
  rw [show ctlOneShot v = true from honeShot] at harmed
  have hstart := ctlStart_of_countsSystemClock hclock
  have hlast := harmed.at_underflow.tick_oneShot
  have hflip := harmed.toggle_at_underflow
  have hcause := harmed.icr_at_underflow
  rw [ticks_latch, tick_latch, writeControl_plain_timer, ← ticks_succ] at hlast
  obtain ⟨hrest, hload⟩ := hlast
  have split : ∀ d, ticks (L + 1 + d + 1) (writeControl x v s).plain =
      ticks d (ticks (L + 1) (tick (writeControl x v s).plain)) := fun d => ticks_add (L + 1) d _
  refine ⟨_, exec_controlWrite x v s, fun n hn => ?_, fun m hm => ?_, ?_, fun m hm => ?_⟩
  · obtain ⟨-, htoggle', hcontrol'⟩ := harmed.ticks n hn
    rw [toggle_ticks hinv, running_ticks hinv, ← htoggle, running]
    refine ⟨htoggle', ?_⟩
    rw [ticks, hcontrol', hcontrol, ctlStart_storedControl, hstart]
  · obtain ⟨d, rfl⟩ := Nat.exists_eq_add_of_le hm
    obtain ⟨hrest', -, htoggle'⟩ := hrest.ticks d
    rw [toggle_ticks hinv, running_ticks hinv, split, htoggle', hflip, htoggle]
    exact ⟨rfl, hrest'.stopped⟩
  · rw [icr_ticks hinv]
    exact hcause
  · obtain ⟨d, rfl⟩ := Nat.exists_eq_add_of_le hm
    rw [logicalCounter_ticks hinv, show L + 2 + d = L + 1 + (d + 1) by omega, split, hrest.counter_ticks, hload,
      timerAfterControl, hlatch]

/-- Settles O30: right after an underflow the timer is armed with its latch, and the underflow that comes re-establishes that. -/
theorem periodIsLatchPlusOne : Obligations.PeriodIsLatchPlusOne := by
  unfold Obligations.PeriodIsLatchPlusOne
  intro x s L h hjust hlatch
  simp only [justUnderflowed, chainFull, oneShotSelected, hasBit_or, Bool.and_eq_true, Bool.not_eq_true', Bool.or_eq_false_iff,
    beq_iff_eq] at hjust
  obtain ⟨⟨⟨⟨⟨-, hload1⟩, hload0⟩, ⟨⟨h0, h1⟩, h2⟩, -⟩, hfeed⟩, hone, hfeedOne⟩ := hjust
  have hnext : (nextCounter x s.plain).toNat = L := by
    rw [nextCounter_of_load (r := s.plain) hload1, State.plain, referenceIn_timer, reconciled_latch, hlatch]
  have harmed : Armed x false L s.plain :=
    ⟨h.plain_unoptimized, hnext, h0, h1, h2, hfeed, hload0, hone, hfeedOne⟩
  refine ⟨fun n h1n hn => ?_, ?_⟩
  · rw [logicalCounter_ticks h, toggle_ticks h, harmed.toggle_ticks hn, State.plain, referenceIn_timer, reconciled_toggle]
    refine ⟨?_, rfl⟩
    obtain ⟨m, rfl⟩ := Nat.exists_eq_add_of_le' h1n
    rw [Nat.add_sub_add_right]
    exact harmed.counter_ticks (Nat.le_of_succ_le_succ hn)
  · have hlast := harmed.at_underflow
    have hstop : stopDue x (ticks L s.plain) = false := by simp [stopDue, oneShotSelected, hlast.oneShot, hlast.feed_oneShot]
    have hagain := hlast.tick_of_no_stop hstop
    have hload : hasBit (tick (ticks L s.plain)).pending x.load1 = true := by
      simp [tick_load1 hlast.run.active hlast.run.feed_used, hlast.underflow]
    have hcount : hasBit (tick (ticks L s.plain)).pending x.count3 = true := by
      simp [tick_count3 hlast.run.active hlast.run.feed_used, hlast.count2, hstop]
    have hzero := harmed.counter_ticks (Nat.le_refl L)
    rw [← logicalCounter_ticks h, Nat.sub_self] at hzero
    rw [← ticks_succ] at hagain hload hcount
    have hactive : (ticks (L + 1) s).idle = false :=
      (h.ticks _).active_of_load1 (x := x) (by rw [pending_ticks h]; exact hload)
    rw [logicalCounter_of_active x hactive] at hzero
    have hcounter : ((ticks (L + 1) s).timer x).counter = 0#16 := BitVec.eq_of_toNat_eq hzero
    rw [justUnderflowed, chainFull, oneShotSelected, hasBit_or, pending_ticks h, feed_ticks h, hcounter, hload, hcount,
      hagain.count0, hagain.count1, hagain.count2, hagain.load0, hagain.feed_count0, hagain.oneShot, hagain.feed_oneShot]
    rfl

/-- A stopped timer with a full chain is at rest after one TICK, its second decrement due (R128). -/
theorem atRest_of_stop {x : TimerId} {v : Byte} {s : State} (h : s.Inv) (hfull : chainFull x s = true)
    (hload0 : hasBit s.pending x.load0 = false) (hload1 : hasBit s.pending x.load1 = false)
    (hge : 2 ≤ (logicalCounter x s).toNat) (hstart : ctlStart v = false) (hforce : ctlLoad v = false) :
    AtRest x (tick (writeControl x v s).plain) ∧
      ((tick (writeControl x v s).plain).timer x).counter = logicalCounter x s - 1#16 ∧
      nextCounter x (tick (writeControl x v s).plain) = logicalCounter x s - 2#16 := by
  have run := (writeControl_inv (x := x) (v := v) h).plain_unoptimized
  have ht := writeControl_plain_timer (x := x) (v := v) (s := s)
  obtain ⟨count0, count1, count2, count3, load0, load1⟩ := pendingAfterControl_chains (x := x) (v := v) s.pending
  obtain ⟨feed0, -⟩ := feedAfterControl_bits (x := x) (v := v) s.feed
  rw [← writeControl_plain_pending (s := s)] at count0 count1 count2 count3 load0 load1
  rw [← writeControl_plain_feed (s := s)] at feed0
  generalize (writeControl x v s).plain = r at *
  simp only [chainFull, Bool.and_eq_true] at hfull
  obtain ⟨⟨-, hcount2⟩, hcount3⟩ := hfull
  rw [not_countsSystemClock_of_stopped hstart] at count0 count1 feed0
  rw [hcount2] at count2
  rw [hcount3] at count3
  rw [hload0, hforce] at load0
  rw [hload1] at load1
  have hnext : nextCounter x r = logicalCounter x s - 1#16 := by
    rw [nextCounter_of_count load1 count3, ht, timerAfterControl]
  have hu : underflowDue x r = false := by
    refine no_underflow_of_nextCounter fun hz => ?_
    rw [hnext] at hz
    bv_omega
  have stopped : running x r = false := by
    rw [running, ht, timerAfterControl, ctlStart_storedControl, hstart]
  have hload' : hasBit (tick r).pending x.load1 = false := by
    simp [tick_load1 run.active run.feed_used, load0, hu]
  have hcount' : hasBit (tick r).pending x.count3 = true := by
    simp [tick_count3 run.active run.feed_used, count2, stopDue, hu]
  have hfirst : ((tick r).timer x).counter = logicalCounter x s - 1#16 := (run.tick.2 x).trans hnext
  refine ⟨⟨run.tick.1, ?_, ?_, ?_, tick_count2_of_stopped run stopped count1, ?_, tick_load0 run.active run.feed_used x⟩,
    hfirst, ?_⟩
  · rw [running, (tick_registers_of_no_underflow run.active hu).2]
    exact stopped
  · simp [tick_count0 run.active, feed0]
  · simp [tick_count1 run.active run.feed_used, count0]
  · simp [tick_feed_count0 run.active, feed0]
  · rw [nextCounter_of_count hload' hcount', hfirst]
    bv_omega

/-- Settles O32: the second TICK and every later one of a timer at rest leave the counter two less. -/
theorem stoppedTimerDrainsTwoDecrements : Obligations.StoppedTimerDrainsTwoDecrements := by
  unfold Obligations.StoppedTimerDrainsTwoDecrements
  intro x v s h hfull hload0 hload1 hge hstart hforce
  have hinv := writeControl_inv (x := x) (v := v) h
  obtain ⟨hrest, hfirst, hnext⟩ := atRest_of_stop (v := v) h hfull hload0 hload1 hge hstart hforce
  refine ⟨_, exec_controlWrite x v s, ?_, fun n hn => ?_⟩
  · rw [logicalCounter_ticks hinv]
    exact hfirst
  · obtain ⟨d, rfl⟩ := Nat.exists_eq_add_of_le' hn
    rw [logicalCounter_ticks hinv]
    exact (hrest.counter_ticks d).trans hnext

/-! ### The cascade (R129) -/

/-- An underflow of the reference machine is one of the machine with the optimizer: an Idle chip is not that close (R183). -/
theorem underflowDue_plain {s : State} (h : s.Inv) (x : TimerId) : underflowDue x s.plain = underflowDue x s := by
  cases hi : s.idle
  case false =>
    rw [State.plain, underflowDue, underflowDue, nextCounter, nextCounter, referenceIn_timer, reconciled,
      logicalCounter_of_active x hi, hi]
    rfl
  case true =>
    have hsteady := h.idle_steady hi
    rw [show underflowDue x s = false by simp [underflowDue, hi]]
    cases hc : counting x s
    · exact no_underflow_of_count2 (r := s.plain) ((count2_of_steady hsteady h.feed_used x).trans hc)
    · exact no_underflow_of_nextCounter
        (nextCounter_referenceIn_of_idle ((inv_iff.mp h).1.timer x) hi hsteady hc Config.default).2

/-- Timer B counts cascade pulses only, and none is at stage 1 of its chain: only an underflow of timer A moves it. -/
structure Cascading (r : State) : Prop where
  run : Unoptimized r
  count0 : hasBit r.pending .countB0 = false
  count1 : hasBit r.pending .countB1 = false
  feed_count0 : hasBit r.feed .countB0 = false
  load0 : hasBit r.pending .loadB0 = false

section
variable {r : State}

theorem Cascading.tick (h : Cascading r) : Cascading (tick r) where
  run := h.run.tick.1
  count0 := (tick_count0 h.run.active .b).trans (by simp [TimerId.count0, h.feed_count0])
  count1 := (tick_count1 h.run.active h.run.feed_used .b).trans (by simp [TimerId.count0, h.count0])
  feed_count0 := (tick_feed_count0 h.run.active .b).trans (by simp [TimerId.count0, h.feed_count0])
  load0 := tick_load0 h.run.active h.run.feed_used .b

theorem Cascading.ticks (h : Cascading r) (n : Nat) : Cascading (ticks n r) := by
  induction n with
  | zero => exact h
  | succ n ih =>
    rw [ticks_succ]
    exact ih.tick

theorem Cascading.tick_count2 (h : Cascading r) (hB : underflowDue .b r = false) :
    hasBit (Machine.tick r).pending .countB2 = (underflowDue .a r && cascadeEnabled r) :=
  (Machine.tick_count2 h.run.active h.run.feed_used .b).trans (by simp [TimerId.count1, h.count1, stopDue, hB])

theorem Cascading.tick_load1 (h : Cascading r) : hasBit (Machine.tick r).pending .loadB1 = underflowDue .b r :=
  (Machine.tick_load1 h.run.active h.run.feed_used .b).trans (by simp [TimerId.load0, h.load0])

theorem Cascading.tick_count3 (h : Cascading r) (hB : underflowDue .b r = false) :
    hasBit (Machine.tick r).pending .countB3 = hasBit r.pending .countB2 :=
  (Machine.tick_count3 h.run.active h.run.feed_used .b).trans (by simp [TimerId.count2, stopDue, hB])

/-- The counter of timer B stands in the second TICK after one without an underflow of timer A. -/
theorem Cascading.counter_stands (h : Cascading r) (hA : underflowDue .a r = false) :
    ((Machine.ticks 3 r).timer .b).counter = ((Machine.ticks 2 r).timer .b).counter := by
  have hcount2 : hasBit (Machine.tick r).pending .countB2 = false :=
    (Machine.tick_count2 h.run.active h.run.feed_used .b).trans (by simp [TimerId.count1, h.count1, hA])
  have hB : underflowDue .b (Machine.tick r) = false := no_underflow_of_count2 hcount2
  refine (h.tick.run.tick.1.tick.2 .b).trans (nextCounter_of_none (x := .b) ?_ ?_)
  · exact h.tick.tick_load1.trans hB
  · exact (h.tick.tick_count3 hB).trans hcount2

/-- The pulse of an underflow of timer A decrements timer B in the third TICK, and in no TICK before it. -/
theorem Cascading.pulse (h : Cascading r) (hA : underflowDue .a r = true) (hcascade : cascadeEnabled r = true)
    (count2 : hasBit r.pending .countB2 = false) (count3 : hasBit r.pending .countB3 = false)
    (load1 : hasBit r.pending .loadB1 = false) (hne : (r.timer .b).counter ≠ 0#16) :
    ((Machine.ticks 1 r).timer .b).counter = (r.timer .b).counter ∧
    ((Machine.ticks 2 r).timer .b).counter = (r.timer .b).counter ∧
    ((Machine.ticks 3 r).timer .b).counter = (r.timer .b).counter - 1#16 := by
  have hB : underflowDue .b r = false := no_underflow_of_count2 count2
  have first : ((Machine.tick r).timer .b).counter = (r.timer .b).counter :=
    (h.run.tick.2 .b).trans (nextCounter_of_none load1 count3)
  have hnext : nextCounter .b (Machine.tick r) = (r.timer .b).counter :=
    (nextCounter_of_none (h.tick_load1.trans hB) ((h.tick_count3 hB).trans count2)).trans first
  have hB' : underflowDue .b (Machine.tick r) = false := no_underflow_of_nextCounter (by rwa [hnext])
  have second : ((Machine.tick (Machine.tick r)).timer .b).counter = (r.timer .b).counter :=
    (h.tick.run.tick.2 .b).trans hnext
  have arrived : hasBit (Machine.tick r).pending .countB2 = true := by rw [h.tick_count2 hB, hA, hcascade]; rfl
  refine ⟨first, second, (h.tick.tick.run.tick.2 .b).trans ?_⟩
  rw [nextCounter_of_count (h.tick.tick_load1.trans hB') ((h.tick.tick_count3 hB').trans arrived), second]

end

/-- In a cascade mode timer B does not count system clocks (R22, R140). -/
theorem not_countsSystemClock_of_cascade {s : State} (h : cascadeEnabled s = true) :
    countsSystemClock .b s.timerB.control = false := by
  unfold cascadeEnabled at h
  rw [countsSystemClock]
  cases hm : inputMode .b s.timerB.control <;> simp_all

/-- Settles O28: the pulse, and then TICKs that find no further pulse in the chain. -/
theorem oneUnderflowOfAGivesOneDecrementOfB : Obligations.OneUnderflowOfAGivesOneDecrementOfB := by
  unfold Obligations.OneUnderflowOfAGivesOneDecrementOfB
  intro s h hA hcascade hempty hne
  simp only [chainEmpty, Bool.and_eq_true, Bool.not_eq_true'] at hempty
  obtain ⟨⟨⟨⟨⟨count0, count1⟩, count2⟩, count3⟩, load0⟩, load1⟩ := hempty
  have hfeed : hasBit s.feed .countB0 = false := h.timer_b.feed_count.trans (not_countsSystemClock_of_cascade hcascade)
  have hstart : Cascading s.plain := ⟨h.plain_unoptimized, count0, count1, hfeed, load0⟩
  have hcounter : (s.plain.timer .b).counter = s.timerB.counter := by
    rw [State.plain, referenceIn_timer, reconciled_counter, logicalCounter_of_active .b (active_of_underflowDue hA)]
    rfl
  have hpulse := hstart.pulse ((underflowDue_plain h .a).trans hA) hcascade count2 count3 load1 (by rwa [hcounter])
  rw [hcounter] at hpulse
  simp only [logicalCounter_ticks h]
  obtain ⟨first, second, third⟩ := hpulse
  refine ⟨first, second, third, fun n hn quiet => ?_⟩
  induction n, hn using Nat.le_induction with
  | base => exact third
  | succ n hn ih =>
    obtain ⟨d, rfl⟩ := Nat.exists_eq_add_of_le' hn
    have hquiet : underflowDue .a (ticks (d + 1) s.plain) = false := by
      rw [← ticks_plain h, underflowDue_plain (h.ticks _)]
      exact quiet (d + 1) (by omega) (by omega)
    have hlast := ih fun m h1 hm => quiet m h1 (by omega)
    have stands := (hstart.ticks (d + 1)).counter_stands hquiet
    rw [← ticks_add, ← ticks_add] at stands
    rw [← hlast]
    exact stands

end Sys2Proof.Machine
